-- ==== Sys2Proof/Word.lean ====
section
/-! DEFINITION. The quantities of the Conventions of spec/00_scope.md: bytes, 16-bit words, and the numbering of the
eight stations, eight station ports, four engineering ports and two access channels. -/

namespace Sys2Proof

/-- A byte of a frame (R177). -/
abbrev Byte := BitVec 8

/-- A word of a PLC's configuration: 16 bits, 0 to 65535 (Conventions). -/
abbrev Word := BitVec 16

/-- A logical station: the value `i` stands for station `i + 1` (R1). -/
abbrev Station := Fin 8

/-- A physical station port: the value `p` stands for SP`p` (R1). -/
abbrev Port := Fin 8

/-- An engineering port: the value `e` stands for ENG`e + 1`. -/
abbrev EngId := Fin 4

/-- An access channel: the value `c` stands for channel `c + 1` (R160). -/
abbrev ChanId := Fin 2

/-- A fingerprint (S1, S2) of R116. -/
abbrev Fingerprint := Nat × Nat

end Sys2Proof
end

