-- ==== Sys2Proof/Syntax.lean ====
section
/-! DEFINITION. The commands of the guard: one constructor of `Instr` per row of spec/opcode_table.json, with the
fields each carries. Fields of requests are held as they come off the wire (R182, R183): a code or number may lie
outside its range, and the meaning answers RANGE or BAD_REQUEST for it as the owning rule says. -/

namespace Sys2Proof

/-- The four jumper positions, in the order of R24. -/
inductive Jumper where
  | high | low | highUnmonitored | none
  deriving DecidableEq, Repr

/-- The three conditioned inputs, in the order of R33. -/
inductive InputId where
  | key | lineRun | cover
  deriving DecidableEq, Repr

/-- One of the guard's serial links. -/
inductive LinkId where
  | station (i : Station)
  | engineering (e : EngId)
  | supervisor
  deriving DecidableEq, Repr

/-- SET PORT MAP (R1): mode SEQUENTIAL 1 or MAPPED 2, and one value per port SP0 to SP7. -/
structure PortMapReq where
  mode : Nat
  values : Vector Nat 8
  deriving DecidableEq, Repr

/-- SET STATION (R3). `required` is the code of off (1) or on (2), `defaultClass` a class code (R182). -/
structure StationReq where
  station : Nat
  name : List Byte
  maker : Option Word
  model : Option Word
  serial : Option (BitVec 32)
  ceiling : Option Nat
  replyTimeout : Nat
  releaseSettle : Nat
  required : Nat
  defaultClass : Nat
  deriving DecidableEq, Repr

/-- SET INPUT (R34): codes of the input and of the edge-report mode, and the check time asked for. -/
structure InputReq where
  input : Nat
  checkTime : Nat
  mode : Nat
  deriving DecidableEq, Repr

/-- The six values of SET TIMING, in the order of R158. -/
structure Timing where
  pollInterval : Nat
  auditPace : Nat
  strikeWindow : Nat
  strikeLimit : Nat
  lockout : Nat
  holdoff : Nat
  deriving DecidableEq, Repr

/-- LOAD WINDOW (R40). -/
structure WindowReq where
  station : Nat
  first : Nat
  last : Nat
  cls : Nat
  deriving DecidableEq, Repr

/-- LOAD PARAMETER (R53), the fields of R52 in order. Values and limits are the 32-bit fields of R182, read by the
kind the request names. -/
structure ParameterReq where
  index : Nat
  station : Nat
  block : Nat
  offset : Nat
  width : Nat
  kind : Nat
  hmin : BitVec 32
  hmax : BitVec 32
  defaultBase : BitVec 32
  current : BitVec 32
  low : Nat
  high : Nat
  step : Option Nat
  grain : Option Nat
  mode : Nat
  budget : Option (Nat × Nat)
  deriving DecidableEq, Repr

/-- LOAD IMAGE (R112). -/
structure ImageReq where
  id : Nat
  length : Nat
  deriving DecidableEq, Repr

/-- LOAD IMAGE WORDS (R113). -/
structure ImageWordsReq where
  id : Nat
  offset : Nat
  count : Nat
  words : List Word
  deriving DecidableEq, Repr

/-- ADD AUDIT ENTRY (R117): check mode SUM 1 or READ 2; no image stands for the reference "format" (R182). -/
structure AuditReq where
  station : Nat
  block : Nat
  length : Nat
  mode : Nat
  image : Option Nat
  deriving DecidableEq, Repr

/-- LOAD RECIPE (R134). -/
structure RecipeReq where
  format : Nat
  name : Option (List Byte)
  deriving DecidableEq, Repr

/-- LOAD RECIPE BLOCK (R135). -/
structure RecipeBlockReq where
  format : Nat
  station : Nat
  block : Nat
  pass : Nat
  image : Nat
  deriving DecidableEq, Repr

/-- LOAD RECIPE VALUE (R136): the value is the 32-bit field of R182, read by the parameter's kind. -/
structure RecipeValueReq where
  format : Nat
  parameter : Nat
  value : BitVec 32
  deriving DecidableEq, Repr

/-- DIRECT READ (R161). -/
structure DirectReadReq where
  station : Nat
  block : Nat
  offset : Nat
  count : Nat
  deriving DecidableEq, Repr

/-- CAPTURE (R162). -/
structure CaptureReq where
  station : Nat
  block : Nat
  image : Nat
  deriving DecidableEq, Repr

/-- A supervisor request, as the link holds it when it arrives while a reply is being sent (R156). `badRecord` is a
frame that is no well-formed request (R157). -/
inductive SupRequest where
  | setPortMap (r : PortMapReq)
  | setStation (r : StationReq)
  | setInput (r : InputReq)
  | setTiming (r : Timing)
  | loadWindow (r : WindowReq)
  | loadParameter (r : ParameterReq)
  | loadImage (r : ImageReq)
  | loadImageWords (r : ImageWordsReq)
  | addAuditEntry (r : AuditReq)
  | loadRecipe (r : RecipeReq)
  | loadRecipeBlock (r : RecipeBlockReq)
  | loadRecipeValue (r : RecipeValueReq)
  | setActiveFormat (f : Nat)
  | clearTables
  | arm
  | disarm
  | lock
  | restart
  | status
  | readStation (station : Nat)
  | readParameter (index : Nat)
  | readAuditEntry (index : Nat)
  | takeEvents
  | ackDrift (index : Nat)
  | auditNow (station : Nat)
  | releaseStation (station : Nat)
  | directRead (r : DirectReadReq)
  | capture (r : CaptureReq)
  | takeAccessResult (channel : Nat)
  | openChangeover (f : Nat)
  | applyChangeover
  | cancelChangeover
  | revertChangeover
  | closeChangeover
  | restoreBlock (index : Nat)
  | badRecord
  deriving DecidableEq, Repr

/-- A tool's READ (R102, R181). -/
structure ToolReadReq where
  station : Nat
  block : Nat
  offset : Nat
  count : Nat
  deriving DecidableEq, Repr

/-- A tool's WRITE (R102, R181). -/
structure ToolWriteReq where
  station : Nat
  block : Nat
  offset : Nat
  count : Nat
  words : List Word
  deriving DecidableEq, Repr

/-- A frame of a tool, after its kind and layout have been looked at (R102). -/
inductive ToolRequest where
  | list
  | read (r : ToolReadReq)
  | write (r : ToolWriteReq)
  | bad
  deriving DecidableEq, Repr

/-- A reply frame of a station whose body has the length of R179. Codes are as sent: a mode outside 1 to 3, a reject
reason outside 1 to 4, fewer than 16 words per frame and a sum above 65520 make it malformed (R180). -/
inductive StationReply where
  | identReply (maker model firmware : Word) (serial : BitVec 32) (highest words : Byte)
  | ack
  | echoReply (bytes : List Byte)
  | stateReply (mode : Byte) (counter : Word)
  | data (words : List Word)
  | sumReply (s1 s2 : Word)
  | reject (reason : Byte)
  deriving DecidableEq, Repr

/-- The commands: one per row of spec/opcode_table.json. `tag` and `seq` are byte 2 of the frame (R177); `moved`
lists jumpers found in another position at the start-up the command brings about (R24). -/
inductive Instr where
  | powerOn (moved : List (Port × Jumper))
  | resetTerminal
  | resetTerminalRelease (moved : List (Port × Jumper))
  | guardTimeTick
  | budgetWindowClose (index : Nat)
  | setPortMap (tag : Byte) (r : PortMapReq)
  | setStation (tag : Byte) (r : StationReq)
  | setInput (tag : Byte) (r : InputReq)
  | setTiming (tag : Byte) (r : Timing)
  | loadWindow (tag : Byte) (r : WindowReq)
  | loadParameter (tag : Byte) (r : ParameterReq)
  | loadImage (tag : Byte) (r : ImageReq)
  | loadImageWords (tag : Byte) (r : ImageWordsReq)
  | addAuditEntry (tag : Byte) (r : AuditReq)
  | loadRecipe (tag : Byte) (r : RecipeReq)
  | loadRecipeBlock (tag : Byte) (r : RecipeBlockReq)
  | loadRecipeValue (tag : Byte) (r : RecipeValueReq)
  | setActiveFormat (tag : Byte) (f : Nat)
  | clearTables (tag : Byte)
  | arm (tag : Byte)
  | disarm (tag : Byte)
  | lock (tag : Byte)
  | restart (tag : Byte) (moved : List (Port × Jumper))
  | status (tag : Byte)
  | readStation (tag : Byte) (station : Nat)
  | readParameter (tag : Byte) (index : Nat)
  | readAuditEntry (tag : Byte) (index : Nat)
  | takeEvents (tag : Byte)
  | ackDrift (tag : Byte) (index : Nat)
  | auditNow (tag : Byte) (station : Nat)
  | releaseStation (tag : Byte) (station : Nat)
  | directRead (tag : Byte) (r : DirectReadReq)
  | capture (tag : Byte) (r : CaptureReq)
  | takeAccessResult (tag : Byte) (channel : Nat)
  | openChangeover (tag : Byte) (f : Nat)
  | applyChangeover (tag : Byte)
  | cancelChangeover (tag : Byte)
  | revertChangeover (tag : Byte)
  | closeChangeover (tag : Byte)
  | restoreBlock (tag : Byte) (index : Nat)
  | badRecord (tag : Byte) (kind : Byte) (body : List Byte)
  | requestHeld (tag : Byte) (r : SupRequest)
  | requestOverrun (tag : Byte) (r : SupRequest)
  | replyTransmitted
  | frameCheckFailed (l : LinkId) (bytes : List Byte)
  | interbyteGap (l : LinkId) (bytes : List Byte)
  | frameLengthOverrange (l : LinkId) (bytes : List Byte)
  | toolList (e : EngId) (tag : Byte)
  | toolRead (e : EngId) (tag : Byte) (r : ToolReadReq)
  | toolWrite (e : EngId) (tag : Byte) (r : ToolWriteReq)
  | badRequest (e : EngId) (tag : Byte) (kind : Byte) (body : List Byte)
  | presentAsserted (e : EngId)
  | presentDropped (e : EngId)
  | detachTimerExpiry (e : EngId)
  | portSettleExpiry (e : EngId)
  | strikeWindowExpiry (e : EngId)
  | lockoutExpiry (e : EngId)
  | identTimerExpiry (i : Station)
  | trainingPauseExpiry (i : Station)
  | pollIntervalExpiry (i : Station)
  | identReply (i : Station) (seq : Byte) (maker model firmware : Word) (serial : BitVec 32) (highest words : Byte)
  | setRateAck (i : Station) (seq : Byte)
  | echoReply (i : Station) (seq : Byte) (bytes : List Byte)
  | stateReply (i : Station) (seq : Byte) (mode : Byte) (counter : Word)
  | writeAck (i : Station) (seq : Byte)
  | dataReply (i : Station) (seq : Byte) (words : List Word)
  | sumReply (i : Station) (seq : Byte) (s1 s2 : Word)
  | rejectReply (i : Station) (seq : Byte) (reason : Byte)
  | replyTimeout (i : Station)
  | malformedReply (i : Station) (seq : Byte) (kind : Byte) (body : List Byte)
  | strayFrame (i : Station) (seq : Byte) (kind : Byte) (body : List Byte)
  | releaseSettleExpiry (p : Port)
  | releaseLimitExpiry (p : Port)
  | inhibitSenseChange (p : Port) (level : Bool)
  | inhibitFault (p : Port)
  | inputRawChange (x : InputId) (level : Bool)
  | inputDebounceExpiry (x : InputId)
  | auditPaceExpiry
  | attentionHoldoffExpiry
  | supplyRemoved
  | resetTerminalAsserted
  deriving DecidableEq, Repr

end Sys2Proof
end

