-- ==== Sys2Proof/Config.lean ====
section
/-! DEFINITION. What the spec fixes for every CG-8 (capacities and times), and what it leaves fixed but unstated in
the part: the guard identity, held as opaque constants so that nothing can be proved from a value. -/

namespace Sys2Proof

/-- The model code of the guard identity: "fixed in the part" (R103), its value not stated. A free value. -/
opaque Config.modelCode : BitVec 16

/-- The design revision of the guard identity: "fixed in the part" (R103), its value not stated. A free value. -/
opaque Config.designRevision : BitVec 8

namespace Config

/-- Window entries (R40). -/
def windowCapacity : Nat := 64
/-- Parameter entries (R52). -/
def parameterCapacity : Nat := 96
/-- Image ids (R111). -/
def imageCapacity : Nat := 160
/-- Words of the reference store (R111). -/
def storeWords : Nat := 32768
/-- Audit entries (R117). -/
def auditCapacity : Nat := 128
/-- Blocks of one recipe (R134). -/
def recipeBlocks : Nat := 48
/-- Values of one recipe (R134). -/
def recipeValues : Nat := 96
/-- The release limit in ms (R26). -/
def releaseLimit : Nat := 1500
/-- The wait before an IDENT in ms (R10). -/
def identWait : Nat := 1000
/-- The pause after a failed training step in ms (R13). -/
def trainingPause : Nat := 1200
/-- The longest poll interval above the base rate in ms (R15). -/
def fastPoll : Nat := 400
/-- The settle time of an engineering port in ms (R99). -/
def portSettle : Nat := 2000
/-- The detach time of an engineering port in ms (R100). -/
def detachTime : Nat := 50
/-- The last value of guard time (R168). -/
def guardTimeMax : Nat := 4294967295
/-- The modulus of a fingerprint's sums (R116). -/
def sumModulus : Nat := 65521
/-- The modulus of the check bytes of a frame (R178). -/
def checkModulus : Nat := 251
/-- The start byte of a frame (R177). -/
def startByte : Byte := 0xC3#8
/-- The longest body of a frame (R177). -/
def bodyMax : Nat := 200

end Config
end Sys2Proof
end

