-- ==== Sys2Proof/Machine/State.lean ====
section
/-! DEFINITION. Everything the spec gives the guard to hold, as plain data, and `State.reset`. Each structure names
the rule whose record it is. The file is written in the order of the block diagram of spec/00_scope.md. -/

namespace Sys2Proof.Machine

open Sys2Proof

/-! ### Names of states, modes, classes, verdicts and reasons -/

/-- The reset that started the guard (R165, R176). -/
inductive ResetCause where
  | power | terminal | request
  deriving DecidableEq, Repr

/-- Unpowered (R39), in reset (R176), or running. -/
inductive Power where
  | unpowered
  | inReset (cause : ResetCause)
  | running
  deriving DecidableEq, Repr

/-- The two stages (R169). -/
inductive Stage where
  | configure | guarding
  deriving DecidableEq, Repr

/-- The classes of a block (R40). -/
inductive Cls where
  | fixed | format | tunable | free
  deriving DecidableEq, Repr

/-- The state of a station (R4). -/
inductive StState where
  | disabled | down | training | online | quarantined
  deriving DecidableEq, Repr

/-- Why a station is QUARANTINED (R4). -/
inductive QReason where
  | identity | inhibit
  deriving DecidableEq, Repr

/-- The mode a PLC reports (R8, R179). -/
inductive PlcMode where
  | run | stop | fault
  deriving DecidableEq, Repr

/-- A station's format state: a format 0 to 12, or MIXED (R138). -/
inductive FormatState where
  | fmt (n : Nat)
  | mixed
  deriving DecidableEq, Repr

/-- The reasons of a station's REJECT (R6, R184). -/
inductive RejectReason where
  | range | writeProtected | busy | unknown
  deriving DecidableEq, Repr

/-- The causes of relays, changeovers and access channels (R184). -/
inductive Cause where
  | reject (r : RejectReason)
  | noReply | expired | quarantine | link | inhibit | interlock | mismatch
  deriving DecidableEq, Repr

/-- The reasons of a refused supervisor request (R157). -/
inductive Reason where
  | stage | locked | full | range | conflict | order | unknown | busy | interlock | badRecord
  deriving DecidableEq, Repr

/-- The policy refusals of a tool write (R106). -/
inductive Policy where
  | fixed | format | unguarded | split | band | step | grain | budget
  deriving DecidableEq, Repr

/-! ### Stations and station links -/

/-- A roster entry (R3). -/
structure RosterEntry where
  name : List Byte
  maker : Option Word
  model : Option Word
  serial : Option (BitVec 32)
  ceiling : Option Nat
  replyTimeout : Nat
  releaseSettle : Nat
  required : Bool
  defaultClass : Cls
  deriving DecidableEq, Repr

/-- Where a tool operation stands (R77). -/
inductive Phase where
  | waitingForLink | settling | writing | readingBack | reading
  deriving DecidableEq, Repr

/-- A tool operation in a station's slot (R77). `tag` is the tag its reply carries (R104), `got` the words read so far
(of a READ, or of a read-back), and `expired` says that its release has expired while a transaction was in flight
(R89). -/
structure ToolOp where
  write : Bool
  port : EngId
  attachment : Nat
  tag : Byte
  block : Nat
  offset : Nat
  count : Nat
  words : List Word
  readBack : Bool
  adjusted : Bool
  changes : List (Nat × Int)
  phase : Phase
  acked : Nat
  writeSent : Bool
  got : List Word
  expired : Bool
  deriving DecidableEq, Repr

/-- The station record (R4). -/
structure StationRec where
  state : StState
  reason : Option QReason
  maker : Option Word
  model : Option Word
  firmware : Option Word
  serial : Option (BitVec 32)
  highest : Option Nat
  rate : Nat
  wordsPerFrame : Nat
  expected : Word
  uncertain : Bool
  missed : Nat
  sumUnreliable : Bool
  mode : Option PlcMode
  format : FormatState
  slot : Option ToolOp
  nextSeq : Byte
  deriving DecidableEq, Repr

/-- What may hold a station's link or wait for it (R19); bring-up holds it in DOWN and TRAINING. -/
inductive LinkUser where
  | bringUp
  | changeover
  | tool
  | access (c : ChanId)
  | audit
  | presence
  deriving DecidableEq, Repr

/-- A request of the guard to a PLC (R6, R179). -/
inductive StationRequest where
  | ident
  | setRate (rate : Nat)
  | echo
  | state
  | read (block offset count : Nat)
  | write (block offset : Nat) (words : List Word)
  | sum (block length : Nat)
  deriving DecidableEq, Repr

/-- The transaction in flight on a link (R7): `owner` is the operation its result goes to, none once that operation
has ended (R20); `timeout` is what remains of the reply timeout. -/
structure Transaction where
  seq : Byte
  request : StationRequest
  owner : Option LinkUser
  timeout : Nat
  deriving DecidableEq, Repr

/-- Where a training step stands (R12, R13): SET RATE sent, `echo n` sent with `n` replies matched, or the pause. -/
inductive TrainPhase where
  | setRate
  | echo (matched : Nat)
  | pause (remaining : Nat)
  deriving DecidableEq, Repr

/-- Training: the candidate rate it began with (R14's degraded flag), the rate of the step, and its place in it. -/
structure Training where
  first : Nat
  rate : Nat
  phase : TrainPhase
  deriving DecidableEq, Repr

/-- What a station's link controller, arbiter and receiver hold beside the record (R7, R10, R13, R15, R19). -/
structure LinkRec where
  holder : Option LinkUser
  waiters : List LinkUser
  inFlight : Option Transaction
  identTimer : Option Nat
  training : Option Training
  pollTimer : Option Nat
  rx : List Byte
  deriving DecidableEq, Repr

/-! ### Inhibit unit and inputs -/

/-- The driven level of an inhibit port (R25). -/
inductive Driven where
  | asserted | released
  deriving DecidableEq, Repr

/-- The operation holding a release (R25). -/
inductive ReleaseHolder where
  | tool (i : Station)
  | changeover
  deriving DecidableEq, Repr

/-- The output monitor's state (R25, R30). -/
inductive Monitor where
  | idle | agree
  | disagree (elapsed : Nat)
  | fault
  deriving DecidableEq, Repr

/-- One port of the inhibit unit (R25); `sensed` is the level at the terminal (true: high, output on). -/
structure InhibitPort where
  jumper : Jumper
  driven : Driven
  holder : Option ReleaseHolder
  limitTimer : Option Nat
  settleTimer : Option Nat
  monitor : Monitor
  sensed : Bool
  deriving DecidableEq, Repr

/-- The edge-report modes (R33). -/
inductive EdgeMode where
  | none | rise | fall | both
  deriving DecidableEq, Repr

/-- One conditioned input (R33). Active is true. -/
structure InputRec where
  raw : Bool
  accepted : Bool
  hold : Nat
  checkTime : Nat
  mode : EdgeMode
  deriving DecidableEq, Repr

/-- KEY, LINE_RUN and COVER. -/
structure Inputs where
  key : InputRec
  lineRun : InputRec
  cover : InputRec
  deriving DecidableEq, Repr

/-! ### Tables -/

/-- A window entry (R40). -/
structure Window where
  station : Station
  first : Nat
  last : Nat
  cls : Cls
  deriving DecidableEq, Repr

/-- A loaded parameter entry (R52): `wide` is width TWO, `clamp` is mode CLAMP, `budget` is (k, P), `window` is an open
budget window (start, count). -/
structure Param where
  station : Station
  block : Nat
  offset : Nat
  wide : Bool
  signed : Bool
  hmin : Int
  hmax : Int
  defaultBase : Int
  base : Int
  current : Int
  low : Nat
  high : Nat
  step : Option Nat
  grain : Nat
  clamp : Bool
  budget : Option (Nat × Nat)
  window : Option (Nat × Nat)
  deriving DecidableEq, Repr

/-- An open image (R111). `words` are those placed so far, so their number is the filled count. -/
structure Image where
  id : Nat
  length : Nat
  position : Nat
  words : List Word
  capture : Option ChanId
  print : Option Fingerprint
  deriving DecidableEq, Repr

/-- The states of an audit entry (R118). -/
inductive AuditState where
  | unchecked | matched | drift | unreachable | suspended | notApplicable
  deriving DecidableEq, Repr

/-- The last outcome of an audit entry (R118). -/
inductive CheckOutcome where
  | matched | differ | unreachable
  deriving DecidableEq, Repr

/-- A drift record (R128). -/
structure DriftRecord where
  offset : Nat
  expected : Word
  actual : Word
  seen : Fingerprint
  time : Nat
  deriving DecidableEq, Repr

/-- An audit entry (R117, R118). No image stands for the reference "format". -/
structure AuditEntry where
  station : Station
  block : Nat
  length : Nat
  readMode : Bool
  image : Option Nat
  cls : Option Cls
  resolved : Option Nat
  expected : Option Fingerprint
  state : AuditState
  lastCheck : Option Nat
  lastOutcome : Option CheckOutcome
  drift : Option DriftRecord
  deriving DecidableEq, Repr

/-- Where a check stands (R125 to R127). -/
inductive CheckPhase where
  | waiting | summing | confirming | reading
  deriving DecidableEq, Repr

/-- The audit check in progress (R122). `bySweep` says a sweep chose it (R130), `discard` that its result is to be
discarded (R119, R121, R129). `kept` is the image a check of a DRIFT entry goes on comparing with after a new
resolution has given the entry another image for later checks (R119, log entry 40). -/
structure Check where
  entry : Nat
  station : Station
  phase : CheckPhase
  got : List Word
  bySweep : Bool
  discard : Bool
  kept : Option Nat := none
  deriving DecidableEq, Repr

/-- A station of the priority sweep queue (R123); `taken` is the last entry its sweep has taken (R124). -/
structure Sweep where
  station : Station
  started : Bool
  again : Bool
  taken : Option Nat
  deriving DecidableEq, Repr

/-- The audit scheduler (R122, R124). A cursor of none stands before entry 0. -/
structure Scheduler where
  check : Option Check
  paceTimer : Option Nat
  sweeps : List Sweep
  cursor : Option Nat
  deriving DecidableEq, Repr

/-- A block item of a recipe (R134). -/
structure RecipeBlock where
  station : Station
  block : Nat
  pass : Nat
  image : Nat
  deriving DecidableEq, Repr

/-- A loaded recipe (R134); values by ascending parameter index. -/
structure Recipe where
  name : Option (List Byte)
  blocks : List RecipeBlock
  values : List (Nat × Int)
  deriving DecidableEq, Repr

/-! ### Changeover controller -/

/-- The states of the controller (R139). -/
inductive ChState where
  | idle | opened | applying | verifying | failed
  deriving DecidableEq, Repr

/-- The kinds of operation (R139). -/
inductive ChKind where
  | changeover | revert | restore
  deriving DecidableEq, Repr

/-- One item of the work list (R144, R154). -/
inductive Step where
  | block (station : Station) (block pass image : Nat)
  | values (station : Station) (items : List (Nat × Int))
  | restore (station : Station) (block : Nat) (words : List Word)
  deriving DecidableEq, Repr

/-- Where a step stands (R145, R148). -/
inductive StepPhase where
  | waiting | checking | settling | writing | reading
  deriving DecidableEq, Repr

/-- What a failure record names (R139). -/
inductive FailItem where
  | block (n : Nat)
  | parameter (n : Nat)
  deriving DecidableEq, Repr

/-- What a MISMATCH saw: the fingerprint for a block, the words for a parameter, the lowest differing offset for a
restore (R148, R154). -/
inductive Seen where
  | print (f : Fingerprint)
  | words (ws : List Word)
  | offset (n : Nat)
  deriving DecidableEq, Repr

/-- A failure record (R139). -/
structure Failure where
  cause : Cause
  station : Option Station
  item : Option FailItem
  pass : Option Nat
  seen : Option Seen
  deriving DecidableEq, Repr

/-- The changeover controller's record (R139), with the operation at work: the work list, the item in progress (its
number is the count of items done), the place in the step, the words or values done, the words read, and the failure
noted while a WRITE is in flight (R147). -/
structure Changeover where
  state : ChState
  kind : Option ChKind
  target : Option Nat
  stations : List Station
  restoreEntry : Option Nat
  work : List Step
  position : Option Nat
  phase : StepPhase
  done : Nat
  got : List Word
  stop : Option Failure
  failure : Option Failure
  deriving DecidableEq, Repr

/-! ### Access channels and engineering ports -/

/-- The states of an access channel (R160). -/
inductive ChanState where
  | free | waiting | running | done
  deriving DecidableEq, Repr

/-- The request kinds of a channel (R160). -/
inductive AccessKind where
  | directRead | capture
  deriving DecidableEq, Repr

/-- The result of a channel (R160). -/
inductive AccessResult where
  | words (ws : List Word)
  | complete
  | failed (c : Cause)
  deriving DecidableEq, Repr

/-- The work a channel carries (R160). -/
structure AccessWork where
  kind : AccessKind
  station : Station
  block : Nat
  offset : Nat
  count : Nat
  image : Option Nat
  got : List Word
  result : Option AccessResult
  deriving DecidableEq, Repr

/-- An access channel (R160). -/
structure Channel where
  state : ChanState
  work : Option AccessWork
  deriving DecidableEq, Repr

/-- The states of an engineering port (R98). -/
inductive EngState where
  | detached | settling | ready | waiting | lockedOut
  deriving DecidableEq, Repr

/-- One item of a LIST reply (R103). -/
structure ListItem where
  number : Nat
  name : List Byte
  state : StState
  format : FormatState
  unprotected : Bool
  deriving DecidableEq, Repr

/-- The replies a tool can receive (R101 to R105, R181). -/
inductive ToolReply where
  | list (model : BitVec 16) (revision : BitVec 8) (stage : Stage) (items : List ListItem)
  | badRequest
  | busy
  | lockedOut (seconds : Nat)
  | notReady | quarantined | mixed | changeover | cover
  | policy (p : Policy) (offset : Nat)
  | noChange (block offset : Nat) (words : List Word)
  | done (block offset : Nat) (words : List Word)
  | adjusted (block offset : Nat) (words : List Word)
  | data (block offset : Nat) (words : List Word)
  | verifyFailed (block offset : Nat) (written read : Word)
  | unconfirmed (block : Nat) (c : Cause) (acked : Nat)
  | failed (block : Nat) (c : Cause)
  deriving DecidableEq, Repr

/-- A reply in a port's transmitter, with the ms its sending still takes. -/
structure ToolTx where
  tag : Byte
  reply : ToolReply
  remaining : Nat
  deriving DecidableEq, Repr

/-- The engineering port record (R98). The strike window and lockout are in ms. -/
structure EngPort where
  state : EngState
  present : Bool
  attachment : Nat
  settleTimer : Option Nat
  detachTimer : Option Nat
  awaited : Option Station
  strikes : Nat
  strikeWindow : Option Nat
  lockout : Option Nat
  tx : List ToolTx
  rx : List Byte
  deriving DecidableEq, Repr

/-! ### Events -/

/-- The sources of events (R184). -/
inductive Source where
  | station (i : Station)
  | engineering (e : EngId)
  | input (x : InputId)
  | controller
  | channel (c : ChanId)
  | guard
  deriving DecidableEq, Repr

/-- The event kinds, numbered 1 to 14 in this order (R184). -/
inductive EventKind where
  | linkUp | linkDown | quarantined | unexpectedChange | drift | relayTrouble | attached | detached | refusal | lockout
  | inputChange | operationDone | accessDone | restarted
  deriving DecidableEq, Repr

/-- The results in the detail of OPERATION_DONE (R149 to R154). -/
inductive OpResult where
  | committed | failed | reverted | restored
  deriving DecidableEq, Repr

/-- The two relay outcomes that post RELAY_TROUBLE, with the detail of R81 and R84. -/
inductive Trouble where
  | verifyFailed (offset : Nat) (written read : Word)
  | unconfirmed (c : Cause) (acked : Nat)
  deriving DecidableEq, Repr

/-- The detail of an event; its constructor is the event's kind (event table of 09_the_supervisor_link.md). -/
inductive Detail where
  | linkUp (rate : Nat) (degraded : Bool)
  | linkDown (left : StState)
  | quarantined (r : QReason)
  | unexpectedChange (by' : Word)
  | drift (index : Nat)
  | relayTrouble (t : Trouble) (port : EngId) (block : Nat)
  | attached (seconds : Nat)
  | detached (left : EngState) (awaited : Bool)
  | refusal (p : Policy) (station : Station) (block : Nat)
  | lockout (seconds : Nat) (p : Policy)
  | inputChange (level : Bool)
  | operationDone (kind : ChKind) (result : OpResult) (subject : Nat) (failure : Option Failure)
  | accessDone (kind : AccessKind) (failure : Option Cause)
  | restarted (cause : ResetCause)
  deriving DecidableEq, Repr

/-- An event record (R165). -/
structure Event where
  source : Source
  detail : Detail
  first : Nat
  last : Nat
  count : Nat
  deriving DecidableEq, Repr

/-! ### Supervisor link -/

/-- The status of a reply (R157). -/
inductive Status where
  | ok | adjusted | refused
  deriving DecidableEq, Repr

/-- The kinds of subject a refusal names (R182). -/
inductive SubjectKind where
  | none | auditEntry | parameter | recipeBlock | activeFormat | station
  deriving DecidableEq, Repr

/-- The subject of a refusal (R182). -/
structure Subject where
  kind : SubjectKind
  number : Nat
  position : Nat
  check : Nat
  deriving DecidableEq, Repr

/-- What STATUS reports (R159), in the order R159 lists it. Strike counts, lockouts in seconds. -/
structure StatusReport where
  guardTime : Nat
  stage : Stage
  locked : Bool
  activeFormat : Nat
  permit : Bool
  attention : Bool
  key : Bool
  lineRun : Bool
  cover : Bool
  stations : List (StState × FormatState)
  windows : Nat
  parameters : Nat
  images : Nat
  reserved : Nat
  entries : Nat
  drifted : Nat
  sweeps : List Station
  recipes : List (Option (Nat × Nat))
  chState : ChState
  chKind : Option ChKind
  chTarget : Option Nat
  chStations : List Station
  chRestore : Option Nat
  chPosition : Option (Step × Nat)
  chFailure : Option Failure
  ports : List (EngState × Nat × Nat)
  channels : List (ChanState × Option AccessKind)
  events : Nat
  deriving DecidableEq, Repr

/-- What READ STATION reports of the station's inhibit port (R25). -/
structure InhibitView where
  jumper : Jumper
  driven : Driven
  holder : Option ReleaseHolder
  fault : Bool
  deriving DecidableEq, Repr

/-- The body of a supervisor reply, after its head. -/
inductive ReplyBody where
  | none
  | checkTime (ms : Nat)
  | timing (t : Timing)
  | status (r : StatusReport)
  | station (roster : RosterEntry) (record : StationRec) (occupied unprotected : Bool) (inhibit : Option InhibitView)
  | parameter (p : Param) (lo hi : Int) (closes : Option Nat)
  | auditEntry (e : AuditEntry) (inProgress : Bool)
  | events (es : List Event)
  | channel (c : ChanId)
  | access (w : AccessWork)
  | stations (s : List Station)
  deriving DecidableEq, Repr

/-- A supervisor reply: the head of R182 and the body. -/
structure SupReply where
  tag : Byte
  status : Status
  reason : Option Reason
  overrun : Bool
  subject : Subject
  body : ReplyBody
  deriving DecidableEq, Repr

/-- The supervisor link (R156): the reply being sent, the held request, the overrun flag, the receiver, the last reply
sent whole (a record of the output; the model's own), and whether the reply being sent is RESTART's, after which the
guard restarts (R175, log entry 9). -/
structure SupLink where
  answering : Option SupReply
  held : Option (Byte × SupRequest)
  overrun : Bool
  rx : List Byte
  lastSent : Option SupReply
  restarting : Bool := false
  deriving DecidableEq, Repr

/-! ### The whole guard -/

/-- The state of the guard, and the queue of commands waiting. -/
structure State where
  power : Power
  resetLevel : Bool
  resetHeld : Nat
  jumperField : Vector Jumper 8
  subSecond : Nat
  guardTime : Nat
  stage : Stage
  locked : Bool
  portMap : Vector (Option Station) 8
  roster : Vector RosterEntry 8
  stations : Vector StationRec 8
  links : Vector LinkRec 8
  ports : Vector InhibitPort 8
  inputs : Inputs
  timing : Timing
  windows : List Window
  params : List (Nat × Param)
  images : List Image
  audit : List AuditEntry
  sched : Scheduler
  recipes : List (Nat × Recipe)
  activeFormat : Nat
  changeover : Changeover
  channels : Vector Channel 2
  eng : Vector EngPort 4
  sup : SupLink
  events : List Event
  holdoff : Option Nat
  pending : List Instr
  deriving DecidableEq, Repr

/-- The reasons a step could stop with a fault. It has no constructor: no rule of the spec stops the machine. A port's
FAULT, a quarantine and a failed operation are states of a machine that goes on. Safe: nothing is cut short. -/
inductive Fault where
  deriving DecidableEq, Repr

/-- The reasons a step could be refused. -/
inductive Refusal where
  /-- Raised by an arm of `exec` for a command that has no meaning yet; safe, for it only stops. No arm raises it. -/
  | notModelled (mnemonic : String)
  deriving DecidableEq, Repr

/-! ### The machine right after reset -/

/-- The roster defaults (R3). -/
def RosterEntry.default : RosterEntry :=
  { name := [], maker := none, model := none, serial := none, ceiling := none, replyTimeout := 40, releaseSettle := 20,
    required := false, defaultClass := .fixed }

/-- A cleared station record: the fields of first mapping (R4) but for the state, which is DISABLED (R23). -/
def StationRec.cleared (activeFormat : Nat) : StationRec :=
  { state := .disabled, reason := none, maker := none, model := none, firmware := none, serial := none, highest := none,
    rate := 0, wordsPerFrame := 16, expected := 0#16, uncertain := true, missed := 0, sumUnreliable := false,
    mode := none, format := .fmt activeFormat, slot := none, nextSeq := 0#8 }

/-- A link with no traffic, no holder and no timer (R23). -/
def LinkRec.quiet : LinkRec :=
  { holder := none, waiters := [], inFlight := none, identTimer := none, training := none, pollTimer := none, rx := [] }

/-- The level at which the wiring of a jumper holds the terminal asserted (R24): high for HIGH and HIGH-UNMONITORED,
low for LOW; NONE drives nothing. -/
def assertedLevel : Jumper → Bool
  | .high | .highUnmonitored => true
  | .low | .none => false

/-- The values of R25 for a port whose jumper is read as `j`. -/
def InhibitPort.start (j : Jumper) : InhibitPort :=
  { jumper := j, driven := .asserted, holder := none, limitTimer := none, settleTimer := none, monitor := .idle,
    sensed := assertedLevel j }

/-- The values of R36 for an input sampled at `raw`. -/
def InputRec.start (raw : Bool) : InputRec :=
  { raw := raw, accepted := raw, hold := 0, checkTime := 32, mode := .both }

/-- The defaults of R158. -/
def defaultTiming : Timing :=
  { pollInterval := 1000, auditPace := 500, strikeWindow := 30, strikeLimit := 3, lockout := 60, holdoff := 100 }

/-- The scheduler's values at reset and at DISARM (R122). -/
def Scheduler.stopped : Scheduler := { check := none, paceTimer := none, sweeps := [], cursor := none }

/-- The reset values of R139. -/
def Changeover.idle : Changeover :=
  { state := .idle, kind := none, target := none, stations := [], restoreEntry := none, work := [], position := none,
    phase := .waiting, done := 0, got := [], stop := none, failure := none }

/-- A FREE channel (R160). -/
def Channel.free : Channel := { state := .free, work := none }

/-- The values of R98 for a port whose PRESENT line is at `present`. -/
def EngPort.start (present : Bool) : EngPort :=
  { state := if present then .settling else .detached, present := present, attachment := 0,
    settleTimer := if present then some Config.portSettle else none, detachTimer := none, awaited := none, strikes := 0,
    strikeWindow := none, lockout := none, tx := [], rx := [] }

/-- The one event of a queue after reset (R165). -/
def Event.restarted (cause : ResetCause) : Event :=
  { source := .guard, detail := .restarted cause, first := 0, last := 0, count := 1 }

/-- The supervisor link after reset (R156); the record of the last reply sent is kept. -/
def SupLink.start (lastSent : Option SupReply) : SupLink :=
  { answering := none, held := none, overrun := false, rx := [], lastSent := lastSent }

/-- The guard after power-on's start-up (R176), with the terminals of log entry 4: KEY at RUN, LINE_RUN inactive, COVER
closed, no tool present, every jumper HIGH. -/
def State.reset : State :=
  { power := .running, resetLevel := false, resetHeld := 0, jumperField := Vector.replicate 8 .high, subSecond := 0,
    guardTime := 0, stage := .configure, locked := false, portMap := Vector.replicate 8 none,
    roster := Vector.replicate 8 .default, stations := Vector.replicate 8 (.cleared 0),
    links := Vector.replicate 8 .quiet, ports := Vector.replicate 8 (.start .high),
    inputs := { key := .start false, lineRun := .start false, cover := .start false }, timing := defaultTiming,
    windows := [], params := [], images := [], audit := [], sched := .stopped, recipes := [], activeFormat := 0,
    changeover := .idle, channels := Vector.replicate 2 .free, eng := Vector.replicate 4 (.start false),
    sup := .start none, events := [.restarted .power], holdoff := none, pending := [] }

end Sys2Proof.Machine
end

