-- ==== Sys2Proof/Machine/Frames.lean ====
section
/-! DEFINITION. The common frame (R177), its check (R178), the receiver that assembles frames from bytes (R101, R156,
R178), and fields of one, two and four bytes, most significant byte first. -/

namespace Sys2Proof.Machine

open Sys2Proof

/-- One byte of a number. -/
def byte1 (n : Nat) : Byte := BitVec.ofNat 8 n

/-- Two bytes, high byte first (R177). -/
def bytes2 (n : Nat) : List Byte := [byte1 (n / 256), byte1 n]

/-- Four bytes, high word first (R177). -/
def bytes4 (n : Nat) : List Byte := bytes2 (n / 65536) ++ bytes2 (n % 65536)

/-- Words as bytes (R177). -/
def wordBytes : List Word → List Byte
  | [] => []
  | w :: ws => byte1 (w.toNat / 256) :: byte1 (w.toNat % 256) :: wordBytes ws

/-- The number two bytes stand for. -/
def num2 (a b : Byte) : Nat := 256 * a.toNat + b.toNat

/-- The number four bytes stand for. -/
def num4 (a b c d : Byte) : Nat := 65536 * num2 a b + num2 c d

/-- Bytes as words; none for an odd number of bytes. -/
def bytesToWords : List Byte → Option (List Word)
  | [] => some []
  | a :: b :: rest => (bytesToWords rest).map (fun ws => BitVec.ofNat 16 (num2 a b) :: ws)
  | [_] => none

/-- The sum of bytes (C1 of R178, before reduction). -/
def byteSum : List Byte → Nat
  | [] => 0
  | b :: bs => b.toNat + byteSum bs

/-- The weighted sum of bytes, the first of weight `i` (C2 of R178, before reduction). -/
def byteWeighted (i : Nat) : List Byte → Nat
  | [] => 0
  | b :: bs => i * b.toNat + byteWeighted (i + 1) bs

/-- The two check bytes over the bytes from the kind byte to the last body byte (R178). -/
def checkBytes (bs : List Byte) : Byte × Byte :=
  (byte1 (byteSum bs % Config.checkModulus), byte1 (byteWeighted 1 bs % Config.checkModulus))

/-- A frame: its kind, its sequence number or tag, its body (R177). -/
structure Frame where
  kind : Byte
  tag : Byte
  body : List Byte
  deriving DecidableEq, Repr

/-- The bytes the check covers (R178). -/
def Frame.covered (f : Frame) : List Byte := f.kind :: f.tag :: byte1 f.body.length :: f.body

/-- The bytes of a frame on a link (R177). -/
def Frame.bytes (f : Frame) : List Byte :=
  Config.startByte :: (f.covered ++ [(checkBytes f.covered).1, (checkBytes f.covered).2])

/-- The frame that complete bytes (start byte first) spell; none when its check fails (R178). -/
def frameOf : List Byte → Option Frame
  | _ :: kind :: tag :: len :: rest =>
    let body := rest.take len.toNat
    let f : Frame := { kind := kind, tag := tag, body := body }
    if rest.drop len.toNat = [(checkBytes (kind :: tag :: len :: body)).1, (checkBytes (kind :: tag :: len :: body)).2]
    then some f else none
  | _ => none

/-- What a receiver does with one byte: the bytes in assembly afterwards, and the bytes of a frame that this byte
completed (R101, R178). Outside a frame only the start byte begins one; a length byte above 200 abandons it. -/
def receiverStep (buf : List Byte) (b : Byte) : List Byte × Option (List Byte) :=
  match buf with
  | [] => if b = Config.startByte then ([b], none) else ([], none)
  | _ :: _ =>
    let now := buf ++ [b]
    match now with
    | _ :: _ :: _ :: len :: rest =>
      if Config.bodyMax < len.toNat then ([], none)
      else if rest.length = len.toNat + 2 then ([], some now) else (now, none)
    | _ => (now, none)

/-- The ms a frame with a body of `n` bytes takes at 115.2 kbit/s with ten bits a byte (R177), rounded up. -/
def frameTime (n : Nat) : Nat := ((n + 6) * 10000 + 115199) / 115200

end Sys2Proof.Machine
end

