-- ==== Sys2Proof/Machine/Operands.lean ====
section
/-! DEFINITION. The operand forms: what a code, number or name of a request or reply stands for, and the ranges the
rules give (R3, R34, R40, R53, R180, R182, R184). Nothing stands for a value outside its range. -/

namespace Sys2Proof.Machine

open Sys2Proof

/-- Logical numbers 1 to 8 (R1). -/
def stationOf (n : Nat) : Option Station :=
  if h : 1 ≤ n ∧ n ≤ 8 then some ⟨n - 1, by omega⟩ else none

/-- The logical number of a station (R1). -/
def stationNumber (i : Station) : Nat := i.val + 1

/-- Channel numbers 1 and 2 (R160). -/
def channelOf (n : Nat) : Option ChanId :=
  if h : 1 ≤ n ∧ n ≤ 2 then some ⟨n - 1, by omega⟩ else none

/-- Class codes (R40, R182). -/
def clsOf : Nat → Option Cls
  | 1 => some .fixed
  | 2 => some .format
  | 3 => some .tunable
  | 4 => some .free
  | _ => none

/-- Input codes (R34, R182). -/
def inputOf : Nat → Option InputId
  | 1 => some .key
  | 2 => some .lineRun
  | 3 => some .cover
  | _ => none

/-- Edge-report mode codes (R33, R182). -/
def edgeOf : Nat → Option EdgeMode
  | 1 => some .none
  | 2 => some .rise
  | 3 => some .fall
  | 4 => some .both
  | _ => none

/-- Codes of a two-valued field: the value listed first is 1 and stands for false (R182): off/on (R3), ONE/TWO,
UNSIGNED/SIGNED, STRICT/CLAMP (R52), SUM/READ (R117), SEQUENTIAL/MAPPED (R1). -/
def secondOf : Nat → Option Bool
  | 1 => some false
  | 2 => some true
  | _ => none

/-- The mode of a STATE REPLY (R179). -/
def plcModeOf (b : Byte) : Option PlcMode :=
  match b.toNat with
  | 1 => some .run
  | 2 => some .stop
  | 3 => some .fault
  | _ => none

/-- The reason of a REJECT (R184). -/
def rejectOf (b : Byte) : Option RejectReason :=
  match b.toNat with
  | 1 => some .range
  | 2 => some .writeProtected
  | 3 => some .busy
  | 4 => some .unknown
  | _ => none

/-- A name field (R181, R183): it ends at the first 00h byte and holds characters 20h to 7Eh; longer than its limit or
with another character it is out of range. -/
def nameOf (limit : Nat) (bytes : List Byte) : Option (List Byte) :=
  let cs := bytes.takeWhile (fun b => b.toNat ≠ 0)
  if bytes.length ≤ limit && cs.all (fun b => 0x20 ≤ b.toNat && b.toNat ≤ 0x7E) then some cs else none

/-- The check time nearest to `n` among 0, 2, 8, 32, 128 and 512, the larger of two equally near (R34). -/
def nearestCheckTime (n : Nat) : Nat :=
  if n < 1 then 0 else if n < 5 then 2 else if n < 20 then 8 else if n < 80 then 32 else if n < 320 then 128 else 512

/-- A value brought into a range (R158). -/
def clampTo (lo hi n : Nat) : Nat := min (max n lo) hi

/-- The six ranges of R158. -/
def clampTiming (t : Timing) : Timing :=
  { pollInterval := clampTo 100 10000 t.pollInterval, auditPace := clampTo 50 60000 t.auditPace,
    strikeWindow := clampTo 1 600 t.strikeWindow, strikeLimit := clampTo 1 15 t.strikeLimit,
    lockout := clampTo 1 3600 t.lockout, holdoff := clampTo 0 1000 t.holdoff }

/-- A four-byte value read by its kind (R182). -/
def valueOf (signed : Bool) (v : BitVec 32) : Int := if signed then v.toInt else (v.toNat : Int)

/-- The least value of a kind (R52). -/
def kindMin (wide signed : Bool) : Int :=
  if signed then (if wide then -2147483648 else -32768) else 0

/-- The greatest value of a kind (R52). -/
def kindMax (wide signed : Bool) : Int :=
  match wide, signed with
  | false, false => 65535
  | false, true => 32767
  | true, false => 4294967295
  | true, true => 2147483647

/-- The greatest deviation or step of a width (R52). -/
def widthMax (wide : Bool) : Nat := if wide then 4294967295 else 65535

/-- Whether a value lies in a range. -/
def between (lo hi v : Int) : Bool := decide (lo ≤ v) && decide (v ≤ hi)

/-- The words of a frame: how many go in the next one (R80). -/
def chunk (perFrame remaining : Nat) : Nat := min perFrame remaining

/-- Seconds of a time in ms, rounded up (R99, R105). -/
def secondsUp (ms : Nat) : Nat := (ms + 999) / 1000

end Sys2Proof.Machine
end

