-- ==== Sys2Proof/Machine/Layouts.lean ====
section
/-! DEFINITION. The bodies of frames on the three kinds of link (R179, R181, R182) and the code tables (R184): what a
received body stands for, and the bytes of what the guard sends on the station links and engineering ports. -/

namespace Sys2Proof.Machine

open Sys2Proof

/-! ### Reading fields -/

/-- A one-byte field. -/
def field1 : List Byte → Option (Nat × List Byte)
  | a :: rest => some (a.toNat, rest)
  | [] => none

/-- A two-byte field. -/
def field2 : List Byte → Option (Nat × List Byte)
  | a :: b :: rest => some (num2 a b, rest)
  | _ => none

/-- A four-byte field. -/
def field4 : List Byte → Option (Nat × List Byte)
  | a :: b :: c :: d :: rest => some (num4 a b c d, rest)
  | _ => none

/-- A field of `n` bytes, such as a name. -/
def fieldBytes (n : Nat) (bs : List Byte) : Option (List Byte × List Byte) :=
  if bs.length < n then none else some (bs.take n, bs.drop n)

/-- An optional field (R182): a presence byte, 0 or 1, then the field at its full size. -/
def fieldOpt {α : Type} (f : List Byte → Option (α × List Byte)) (bs : List Byte) : Option (Option α × List Byte) := do
  let (p, bs) ← field1 bs
  let (x, bs) ← f bs
  if p = 0 then some (none, bs) else if p = 1 then some (some x, bs) else none

/-- A body has no byte left over. -/
def atEnd {α : Type} (x : α) : List Byte → Option α
  | [] => some x
  | _ :: _ => none

/-! ### Station links -/

/-- The kind byte of a request (R184). -/
def StationRequest.kind : StationRequest → Byte
  | .ident => 0x01#8
  | .setRate _ => 0x02#8
  | .echo => 0x03#8
  | .state => 0x04#8
  | .read _ _ _ => 0x05#8
  | .write _ _ _ => 0x06#8
  | .sum _ _ => 0x07#8

/-- The pattern of ECHO (R12): byte i is (17 × i + 5) mod 256. -/
def echoPattern : List Byte := (List.range 32).map (fun i => byte1 ((17 * i + 5) % 256))

/-- The body of a request (R179). -/
def StationRequest.body : StationRequest → List Byte
  | .ident => []
  | .setRate r => [byte1 r]
  | .echo => echoPattern
  | .state => []
  | .read b o n => bytes2 b ++ [byte1 o, byte1 n]
  | .write b o ws => bytes2 b ++ [byte1 o, byte1 ws.length] ++ wordBytes ws
  | .sum b n => bytes2 b ++ bytes2 n

/-- The frame of a request under its sequence number (R7). -/
def StationRequest.frame (q : StationRequest) (seq : Byte) : Frame := { kind := q.kind, tag := seq, body := q.body }

/-- What a reply frame of a station stands for; none when its kind is no reply or its L differs from R179. -/
def parseReply (kind : Byte) (body : List Byte) : Option StationReply :=
  match kind.toNat with
  | 0x81 => do
    let (mk, bs) ← field2 body
    let (md, bs) ← field2 bs
    let (fw, bs) ← field2 bs
    let (sn, bs) ← field4 bs
    let (hi, bs) ← field1 bs
    let (wf, bs) ← field1 bs
    atEnd (.identReply (BitVec.ofNat 16 mk) (BitVec.ofNat 16 md) (BitVec.ofNat 16 fw) (BitVec.ofNat 32 sn) (byte1 hi)
      (byte1 wf)) bs
  | 0x82 => atEnd .ack body
  | 0x83 => if body.length = 32 then some (.echoReply body) else none
  | 0x84 => do
    let (m, bs) ← field1 body
    let (v, bs) ← field2 bs
    atEnd (.stateReply (byte1 m) (BitVec.ofNat 16 v)) bs
  | 0x85 => (bytesToWords body).map .data
  | 0x87 => do
    let (a, bs) ← field2 body
    let (b, bs) ← field2 bs
    atEnd (.sumReply (BitVec.ofNat 16 a) (BitVec.ofNat 16 b)) bs
  | 0x8F => do
    let (r, bs) ← field1 body
    atEnd (.reject (byte1 r)) bs
  | _ => none

/-- The kind byte of a station's reply (R184). -/
def StationReply.kind : StationReply → Byte
  | .identReply _ _ _ _ _ _ => 0x81#8
  | .ack => 0x82#8
  | .echoReply _ => 0x83#8
  | .stateReply _ _ => 0x84#8
  | .data _ => 0x85#8
  | .sumReply _ _ => 0x87#8
  | .reject _ => 0x8F#8

/-- The body of a station's reply (R179). -/
def StationReply.body : StationReply → List Byte
  | .identReply mk md fw sn hi wf => bytes2 mk.toNat ++ bytes2 md.toNat ++ bytes2 fw.toNat ++ bytes4 sn.toNat ++ [hi, wf]
  | .ack => []
  | .echoReply bytes => bytes
  | .stateReply m v => m :: bytes2 v.toNat
  | .data ws => wordBytes ws
  | .sumReply a b => bytes2 a.toNat ++ bytes2 b.toNat
  | .reject r => [r]

/-- A reply's kind is one of those listed for the request (R6). -/
def answers : StationRequest → StationReply → Bool
  | _, .reject _ => true
  | .ident, .identReply _ _ _ _ _ _ => true
  | .setRate _, .ack => true
  | .echo, .echoReply _ => true
  | .state, .stateReply _ _ => true
  | .read _ _ _, .data _ => true
  | .write _ _ _, .ack => true
  | .sum _ _, .sumReply _ _ => true
  | _, _ => false

/-- A reply of the right kind is well formed for its request (R180). -/
def wellFormedReply : StationRequest → StationReply → Bool
  | _, .reject r => (rejectOf r).isSome
  | _, .identReply _ _ _ _ _ words => decide (16 ≤ words.toNat)
  | _, .echoReply bytes => decide (bytes.length = 32)
  | _, .stateReply m _ => (plcModeOf m).isSome
  | .read _ _ n, .data ws => decide (ws.length = n)
  | _, .data _ => false
  | _, .sumReply a b => decide (a.toNat < Config.sumModulus) && decide (b.toNat < Config.sumModulus)
  | _, .ack => true

/-! ### Engineering ports -/

/-- What a tool's frame stands for (R181, R183): `bad` when its kind is none of the three or its L differs. -/
def parseTool (kind : Byte) (body : List Byte) : ToolRequest :=
  match kind.toNat with
  | 1 => if body = [] then .list else .bad
  | 2 => match body with
    | [i, b1, b0, o, n] =>
      .read { station := i.toNat, block := num2 b1 b0, offset := o.toNat, count := n.toNat }
    | _ => .bad
  | 3 => match body with
    | i :: b1 :: b0 :: o :: n :: rest =>
      match bytesToWords rest with
      | some ws =>
        if ws.length = n.toNat then
          .write { station := i.toNat, block := num2 b1 b0, offset := o.toNat, count := n.toNat, words := ws }
        else .bad
      | none => .bad
    | _ => .bad
  | _ => .bad

/-- The kind byte of a tool's request (R184). -/
def ToolRequest.kind : ToolRequest → Byte
  | .list => 1#8
  | .read _ => 2#8
  | .write _ => 3#8
  | .bad => 0#8

/-- The body of a tool's request (R181). -/
def ToolRequest.body : ToolRequest → List Byte
  | .list => []
  | .read r => [byte1 r.station] ++ bytes2 r.block ++ [byte1 r.offset, byte1 r.count]
  | .write r => [byte1 r.station] ++ bytes2 r.block ++ [byte1 r.offset, byte1 r.count] ++ wordBytes r.words
  | .bad => []

/-- Codes of the stages, in the order of R169 (R182). -/
def Stage.code : Stage → Nat
  | .configure => 1
  | .guarding => 2

/-- Codes of the station states, in the order of R4 (R182). -/
def StState.code : StState → Nat
  | .disabled => 1
  | .down => 2
  | .training => 3
  | .online => 4
  | .quarantined => 5

/-- A format state in one byte: 0 to 12, or 255 for MIXED. R181 gives the 255 for LIST only; STATUS and READ STATION,
for which no rule names the byte of MIXED, send the same (R159, R182: DESIGN CHOICE, log entry 46). -/
def FormatState.code : FormatState → Nat
  | .fmt n => n
  | .mixed => 255

/-- Codes of reject reasons (R184). -/
def RejectReason.code : RejectReason → Nat
  | .range => 1
  | .writeProtected => 2
  | .busy => 3
  | .unknown => 4

/-- Codes of causes (R184). -/
def Cause.code : Cause → Nat
  | .reject _ => 1
  | .noReply => 2
  | .expired => 3
  | .quarantine => 4
  | .link => 5
  | .inhibit => 6
  | .interlock => 7
  | .mismatch => 8

/-- The reject reason of a cause, 0 when none (R181). -/
def Cause.rejectCode : Cause → Nat
  | .reject r => r.code
  | _ => 0

/-- Codes of the policy refusals (R184). -/
def Policy.code : Policy → Nat
  | .fixed => 20
  | .format => 21
  | .unguarded => 22
  | .split => 23
  | .band => 24
  | .step => 25
  | .grain => 26
  | .budget => 27

/-- A one-byte flag: 1 or 0. -/
def flagByte (b : Bool) : Byte := if b then 1#8 else 0#8

/-- A name in its fixed field, filled with 00h (R181). -/
def nameField (width : Nat) (name : List Byte) : List Byte := name ++ List.replicate (width - name.length) 0#8

/-- An item of a LIST reply (R181). -/
def ListItem.bytes (it : ListItem) : List Byte :=
  [byte1 it.number] ++ nameField 12 it.name ++ [byte1 it.state.code, byte1 it.format.code, flagByte it.unprotected]

/-- Block, offset, count and words (R181). -/
def dataFields (b o : Nat) (ws : List Word) : List Byte := bytes2 b ++ [byte1 o, byte1 ws.length] ++ wordBytes ws

/-- The body of a TOOL REPLY: the reply code and its fields (R181, R184). -/
def ToolReply.body : ToolReply → List Byte
  | .list model rev stage items =>
    [8#8] ++ bytes2 model.toNat ++ [rev, byte1 stage.code, byte1 items.length] ++ (items.map ListItem.bytes).flatten
  | .badRequest => [10#8]
  | .busy => [11#8]
  | .lockedOut n => [12#8] ++ bytes2 n
  | .notReady => [13#8]
  | .quarantined => [14#8]
  | .mixed => [15#8]
  | .changeover => [16#8]
  | .cover => [17#8]
  | .policy .fixed _ => [20#8]
  | .policy .format _ => [21#8]
  | .policy p o => [byte1 p.code, byte1 o]
  | .noChange b o ws => [3#8] ++ dataFields b o ws
  | .done b o ws => [1#8] ++ dataFields b o ws
  | .adjusted b o ws => [2#8] ++ dataFields b o ws
  | .data b o ws => [7#8] ++ dataFields b o ws
  | .verifyFailed b o w r => [4#8] ++ bytes2 b ++ [byte1 o] ++ bytes2 w.toNat ++ bytes2 r.toNat
  | .unconfirmed b c n => [5#8] ++ bytes2 b ++ [byte1 c.code, byte1 c.rejectCode, byte1 n]
  | .failed b c => [6#8] ++ bytes2 b ++ [byte1 c.code, byte1 c.rejectCode]

/-- The frame of a reply to a tool (R184: kind A0h). -/
def ToolReply.frame (r : ToolReply) (tag : Byte) : Frame := { kind := 0xA0#8, tag := tag, body := r.body }

/-! ### Supervisor requests -/

/-- Eight one-byte fields (R1). -/
def fieldEight : List Byte → Option (Vector Nat 8 × List Byte)
  | a :: b :: c :: d :: e :: f :: g :: h :: rest =>
    some (#v[a.toNat, b.toNat, c.toNat, d.toNat, e.toNat, f.toNat, g.toNat, h.toNat], rest)
  | _ => none

/-- A body that is one one-byte field. -/
def oneByte (f : Nat → SupRequest) (body : List Byte) : Option SupRequest := do
  let (n, bs) ← field1 body
  atEnd (f n) bs

/-- The body of SET STATION (R3, R182). -/
def parseSetStation (body : List Byte) : Option SupRequest := do
  let (station, bs) ← field1 body
  let (name, bs) ← fieldBytes 12 bs
  let (maker, bs) ← fieldOpt field2 bs
  let (model, bs) ← fieldOpt field2 bs
  let (serial, bs) ← fieldOpt field4 bs
  let (ceiling, bs) ← fieldOpt field1 bs
  let (replyTimeout, bs) ← field2 bs
  let (releaseSettle, bs) ← field2 bs
  let (required, bs) ← field1 bs
  let (cls, bs) ← field1 bs
  atEnd (.setStation
    { station := station, name := name, maker := maker.map (BitVec.ofNat 16), model := model.map (BitVec.ofNat 16),
      serial := serial.map (BitVec.ofNat 32), ceiling := ceiling, replyTimeout := replyTimeout,
      releaseSettle := releaseSettle, required := required, defaultClass := cls }) bs

/-- k and P of a budget (R182). -/
def fieldBudget (body : List Byte) : Option ((Nat × Nat) × List Byte) := do
  let (k, bs) ← field1 body
  let (p, bs) ← field2 bs
  some ((k, p), bs)

/-- The body of LOAD PARAMETER (R52, R53, R182). -/
def parseLoadParameter (body : List Byte) : Option SupRequest := do
  let (index, bs) ← field1 body
  let (station, bs) ← field1 bs
  let (block, bs) ← field2 bs
  let (offset, bs) ← field1 bs
  let (width, bs) ← field1 bs
  let (kind, bs) ← field1 bs
  let (hmin, bs) ← field4 bs
  let (hmax, bs) ← field4 bs
  let (base, bs) ← field4 bs
  let (current, bs) ← field4 bs
  let (low, bs) ← field4 bs
  let (high, bs) ← field4 bs
  let (step, bs) ← fieldOpt field4 bs
  let (grain, bs) ← fieldOpt field2 bs
  let (mode, bs) ← field1 bs
  let (budget, bs) ← fieldOpt fieldBudget bs
  atEnd (.loadParameter
    { index := index, station := station, block := block, offset := offset, width := width, kind := kind,
      hmin := BitVec.ofNat 32 hmin, hmax := BitVec.ofNat 32 hmax, defaultBase := BitVec.ofNat 32 base,
      current := BitVec.ofNat 32 current, low := low, high := high, step := step, grain := grain, mode := mode,
      budget := budget }) bs

/-- What a well-formed supervisor body stands for (R182, R184); none calls for BAD_RECORD (R157, R183). -/
def parseRequest? (kind : Byte) (body : List Byte) : Option SupRequest :=
  match kind.toNat with
  | 0x40 => do
    let (mode, bs) ← field1 body
    let (vs, bs) ← fieldEight bs
    atEnd (.setPortMap { mode := mode, values := vs }) bs
  | 0x41 => parseSetStation body
  | 0x42 => do
    let (x, bs) ← field1 body
    let (ms, bs) ← field2 bs
    let (m, bs) ← field1 bs
    atEnd (.setInput { input := x, checkTime := ms, mode := m }) bs
  | 0x43 => do
    let (a, bs) ← field2 body
    let (b, bs) ← field2 bs
    let (c, bs) ← field2 bs
    let (d, bs) ← field2 bs
    let (e, bs) ← field2 bs
    let (f, bs) ← field2 bs
    atEnd (.setTiming { pollInterval := a, auditPace := b, strikeWindow := c, strikeLimit := d, lockout := e,
                        holdoff := f }) bs
  | 0x44 => do
    let (i, bs) ← field1 body
    let (a, bs) ← field2 bs
    let (b, bs) ← field2 bs
    let (c, bs) ← field1 bs
    atEnd (.loadWindow { station := i, first := a, last := b, cls := c }) bs
  | 0x45 => parseLoadParameter body
  | 0x46 => do
    let (id, bs) ← field1 body
    let (n, bs) ← field2 bs
    atEnd (.loadImage { id := id, length := n }) bs
  | 0x47 => do
    let (id, bs) ← field1 body
    let (o, bs) ← field1 bs
    let (n, bs) ← field1 bs
    let ws ← bytesToWords bs
    if ws.length = n then some (.loadImageWords { id := id, offset := o, count := n, words := ws }) else none
  | 0x48 => do
    let (i, bs) ← field1 body
    let (b, bs) ← field2 bs
    let (n, bs) ← field2 bs
    let (m, bs) ← field1 bs
    let (im, bs) ← fieldOpt field1 bs
    atEnd (.addAuditEntry { station := i, block := b, length := n, mode := m, image := im }) bs
  | 0x49 => do
    let (f, bs) ← field1 body
    let (nm, bs) ← fieldOpt (fieldBytes 16) bs
    atEnd (.loadRecipe { format := f, name := nm }) bs
  | 0x4A => do
    let (f, bs) ← field1 body
    let (i, bs) ← field1 bs
    let (b, bs) ← field2 bs
    let (p, bs) ← field1 bs
    let (im, bs) ← field1 bs
    atEnd (.loadRecipeBlock { format := f, station := i, block := b, pass := p, image := im }) bs
  | 0x4B => do
    let (f, bs) ← field1 body
    let (p, bs) ← field1 bs
    let (v, bs) ← field4 bs
    atEnd (.loadRecipeValue { format := f, parameter := p, value := BitVec.ofNat 32 v }) bs
  | 0x4C => oneByte .setActiveFormat body
  | 0x4D => atEnd .clearTables body
  | 0x4E => atEnd .arm body
  | 0x4F => atEnd .disarm body
  | 0x50 => atEnd .lock body
  | 0x51 => atEnd .restart body
  | 0x52 => atEnd .status body
  | 0x53 => oneByte .readStation body
  | 0x54 => oneByte .readParameter body
  | 0x55 => oneByte .readAuditEntry body
  | 0x56 => atEnd .takeEvents body
  | 0x57 => oneByte .ackDrift body
  | 0x58 => oneByte .auditNow body
  | 0x59 => oneByte .releaseStation body
  | 0x5A => do
    let (i, bs) ← field1 body
    let (b, bs) ← field2 bs
    let (o, bs) ← field1 bs
    let (n, bs) ← field1 bs
    atEnd (.directRead { station := i, block := b, offset := o, count := n }) bs
  | 0x5B => do
    let (i, bs) ← field1 body
    let (b, bs) ← field2 bs
    let (im, bs) ← field1 bs
    atEnd (.capture { station := i, block := b, image := im }) bs
  | 0x5C => oneByte .takeAccessResult body
  | 0x5D => oneByte .openChangeover body
  | 0x5E => atEnd .applyChangeover body
  | 0x5F => atEnd .cancelChangeover body
  | 0x60 => atEnd .revertChangeover body
  | 0x61 => atEnd .closeChangeover body
  | 0x62 => oneByte .restoreBlock body
  | _ => none

/-- What a frame on the supervisor link asks for; `badRecord` when it is not well formed (R157, R183). -/
def parseRequest (kind : Byte) (body : List Byte) : SupRequest := (parseRequest? kind body).getD .badRecord

/-- An optional field (R182): absent is a 0 and the field's bytes as zeros. -/
def optField {α : Type} (width : Nat) (f : α → List Byte) : Option α → List Byte
  | none => 0#8 :: List.replicate width 0#8
  | some x => 1#8 :: f x

/-- The kind byte of a request (R184); `badRecord` has none. -/
def SupRequest.kind : SupRequest → Byte
  | .setPortMap _ => 0x40#8
  | .setStation _ => 0x41#8
  | .setInput _ => 0x42#8
  | .setTiming _ => 0x43#8
  | .loadWindow _ => 0x44#8
  | .loadParameter _ => 0x45#8
  | .loadImage _ => 0x46#8
  | .loadImageWords _ => 0x47#8
  | .addAuditEntry _ => 0x48#8
  | .loadRecipe _ => 0x49#8
  | .loadRecipeBlock _ => 0x4A#8
  | .loadRecipeValue _ => 0x4B#8
  | .setActiveFormat _ => 0x4C#8
  | .clearTables => 0x4D#8
  | .arm => 0x4E#8
  | .disarm => 0x4F#8
  | .lock => 0x50#8
  | .restart => 0x51#8
  | .status => 0x52#8
  | .readStation _ => 0x53#8
  | .readParameter _ => 0x54#8
  | .readAuditEntry _ => 0x55#8
  | .takeEvents => 0x56#8
  | .ackDrift _ => 0x57#8
  | .auditNow _ => 0x58#8
  | .releaseStation _ => 0x59#8
  | .directRead _ => 0x5A#8
  | .capture _ => 0x5B#8
  | .takeAccessResult _ => 0x5C#8
  | .openChangeover _ => 0x5D#8
  | .applyChangeover => 0x5E#8
  | .cancelChangeover => 0x5F#8
  | .revertChangeover => 0x60#8
  | .closeChangeover => 0x61#8
  | .restoreBlock _ => 0x62#8
  | .badRecord => 0x00#8

/-- The body of a request (R182): the fields its rule names, in that order. -/
def SupRequest.body : SupRequest → List Byte
  | .setPortMap r => byte1 r.mode :: r.values.toList.map byte1
  | .setStation r =>
    byte1 r.station :: r.name ++ optField 2 (fun w => bytes2 (BitVec.toNat w)) r.maker
      ++ optField 2 (fun w => bytes2 (BitVec.toNat w)) r.model ++ optField 4 (fun w => bytes4 (BitVec.toNat w)) r.serial
      ++ optField 1 (fun n => [byte1 n]) r.ceiling ++ bytes2 r.replyTimeout ++ bytes2 r.releaseSettle
      ++ [byte1 r.required, byte1 r.defaultClass]
  | .setInput r => byte1 r.input :: bytes2 r.checkTime ++ [byte1 r.mode]
  | .setTiming t =>
    bytes2 t.pollInterval ++ bytes2 t.auditPace ++ bytes2 t.strikeWindow ++ bytes2 t.strikeLimit ++ bytes2 t.lockout
      ++ bytes2 t.holdoff
  | .loadWindow r => byte1 r.station :: bytes2 r.first ++ bytes2 r.last ++ [byte1 r.cls]
  | .loadParameter r =>
    [byte1 r.index, byte1 r.station] ++ bytes2 r.block ++ [byte1 r.offset, byte1 r.width, byte1 r.kind]
      ++ bytes4 r.hmin.toNat ++ bytes4 r.hmax.toNat ++ bytes4 r.defaultBase.toNat ++ bytes4 r.current.toNat
      ++ bytes4 r.low ++ bytes4 r.high ++ optField 4 bytes4 r.step ++ optField 2 bytes2 r.grain ++ [byte1 r.mode]
      ++ optField 3 (fun b => byte1 b.1 :: bytes2 b.2) r.budget
  | .loadImage r => byte1 r.id :: bytes2 r.length
  | .loadImageWords r => [byte1 r.id, byte1 r.offset, byte1 r.count] ++ wordBytes r.words
  | .addAuditEntry r =>
    byte1 r.station :: bytes2 r.block ++ bytes2 r.length ++ [byte1 r.mode] ++ optField 1 (fun n => [byte1 n]) r.image
  | .loadRecipe r => byte1 r.format :: optField 16 (fun nm => nm) r.name
  | .loadRecipeBlock r => [byte1 r.format, byte1 r.station] ++ bytes2 r.block ++ [byte1 r.pass, byte1 r.image]
  | .loadRecipeValue r => [byte1 r.format, byte1 r.parameter] ++ bytes4 r.value.toNat
  | .setActiveFormat n => [byte1 n]
  | .clearTables => []
  | .arm => []
  | .disarm => []
  | .lock => []
  | .restart => []
  | .status => []
  | .readStation n => [byte1 n]
  | .readParameter n => [byte1 n]
  | .readAuditEntry n => [byte1 n]
  | .takeEvents => []
  | .ackDrift n => [byte1 n]
  | .auditNow n => [byte1 n]
  | .releaseStation n => [byte1 n]
  | .directRead r => byte1 r.station :: bytes2 r.block ++ [byte1 r.offset, byte1 r.count]
  | .capture r => byte1 r.station :: bytes2 r.block ++ [byte1 r.image]
  | .takeAccessResult n => [byte1 n]
  | .openChangeover n => [byte1 n]
  | .applyChangeover => []
  | .cancelChangeover => []
  | .revertChangeover => []
  | .closeChangeover => []
  | .restoreBlock n => [byte1 n]
  | .badRecord => []

end Sys2Proof.Machine
end

