-- ==== Sys2Proof/Machine/Tables.lean ====
section
/-! DEFINITION. What the tables say: window lookup (R42), the parameter guard's arithmetic and judgement (R56 to R70),
fingerprints and images (R111 to R116), recipes (R134), and what the audit expects (R119). Pure functions of the
tables. -/

namespace Sys2Proof.Machine

open Sys2Proof

/-! ### Tables by index -/

/-- The item held at an index. -/
def tableGet {α : Type} (t : List (Nat × α)) (k : Nat) : Option α :=
  match t with
  | [] => none
  | (j, x) :: rest => if j = k then some x else tableGet rest k

/-- Places an item at an index, in ascending order; an item already there is replaced. -/
def tableSet {α : Type} (t : List (Nat × α)) (k : Nat) (x : α) : List (Nat × α) :=
  match t with
  | [] => [(k, x)]
  | (j, y) :: rest =>
    if j = k then (k, x) :: rest else if k < j then (k, x) :: (j, y) :: rest else (j, y) :: tableSet rest k x

/-- Changes the item at an index, if there is one. -/
def tableMod {α : Type} (t : List (Nat × α)) (k : Nat) (f : α → α) : List (Nat × α) :=
  t.map (fun e => if e.1 = k then (e.1, f e.2) else e)

/-! ### Windows -/

/-- A window entry covers a block of its station (R40). -/
def Window.covers (w : Window) (i : Station) (b : Nat) : Bool :=
  decide (w.station = i) && decide (w.first ≤ b) && decide (b ≤ w.last)

/-- The class of a block, by the entry that covers it or by the roster's default (R42). -/
def classOf (ws : List Window) (roster : Vector RosterEntry 8) (i : Station) (b : Nat) : Cls :=
  match ws.find? (fun w => w.covers i b) with
  | some w => w.cls
  | none => roster[i].defaultClass

/-! ### Parameters -/

/-- The word at a block offset is one of the parameter's words (R56). -/
def Param.covers (p : Param) (i : Station) (b w : Nat) : Bool :=
  decide (p.station = i) && decide (p.block = b) && (decide (p.offset = w) || (p.wide && decide (p.offset + 1 = w)))

/-- The parameter a word belongs to (R56). -/
def paramAt (ps : List (Nat × Param)) (i : Station) (b w : Nat) : Option (Nat × Param) :=
  ps.find? (fun e => e.2.covers i b w)

/-- How many words a parameter has (R52). -/
def Param.width (p : Param) : Nat := if p.wide then 2 else 1

/-- The band's lower limit (R59). -/
def Param.lo (p : Param) : Int := max (p.base - p.low) p.hmin
/-- The band's upper limit (R59). -/
def Param.hi (p : Param) : Int := min (p.base + p.high) p.hmax
/-- The step window's lower limit (R60). -/
def Param.slo (p : Param) : Int := match p.step with
  | some n => p.current - n
  | none => p.lo
/-- The step window's upper limit (R60). -/
def Param.shi (p : Param) : Int := match p.step with
  | some n => p.current + n
  | none => p.hi
/-- The target window's lower limit (R60). -/
def Param.tlo (p : Param) : Int := max p.lo p.slo
/-- The target window's upper limit (R60). -/
def Param.thi (p : Param) : Int := min p.hi p.shi

/-- Decoding of a parameter's words (R58): one word, or the high and the low one. -/
def Param.decode (p : Param) (first second : Word) : Int :=
  if p.wide then
    let u : Int := 65536 * (first.toNat : Int) + (second.toNat : Int)
    if p.signed && decide (32768 ≤ first.toNat) then u - 4294967296 else u
  else
    if p.signed && decide (32768 ≤ first.toNat) then (first.toNat : Int) - 65536 else (first.toNat : Int)

/-- Encoding of a value into the parameter's words (R67). -/
def Param.encode (p : Param) (a : Int) : List Word :=
  if p.wide then
    let u : Nat := (if a < 0 then a + 4294967296 else a).toNat
    [BitVec.ofNat 16 (u / 65536), BitVec.ofNat 16 (u % 65536)]
  else
    [BitVec.ofNat 16 (if a < 0 then a + 65536 else a).toNat]

/-- The verdict on one parameter (section 4.3). -/
inductive Verdict where
  | unchanged
  | pass (a : Int)
  | clamped (a : Int)
  | held
  | refused (p : Policy)
  deriving DecidableEq, Repr

/-- The open budget window at guard time `t`; one whose closing time has come is closed (R65). -/
def Param.openWindow (p : Param) (t : Nat) : Option (Nat × Nat) :=
  match p.budget, p.window with
  | some (_, minutes), some (start, count) => if start + 60 * minutes ≤ t then none else some (start, count)
  | _, _ => none

/-- The STRICT tests in order (R61). -/
def Param.strictVerdict (p : Param) (r : Int) : Verdict :=
  if r < p.lo ∨ p.hi < r then .refused .band
  else if r < p.slo ∨ p.shi < r then .refused .step
  else if (r - p.base) % (p.grain : Int) ≠ 0 then .refused .grain
  else .pass r

/-- The clamped request of R62. -/
def Param.clampRequest (p : Param) (r : Int) : Int :=
  if r < p.tlo then p.tlo else if p.thi < r then p.thi else r

/-- The grain point toward the baseline (R62). -/
def Param.candidate (p : Param) (x : Int) : Int := p.base + p.grain * (x - p.base).tdiv p.grain

/-- The correction of R63. -/
def Param.corrected (p : Param) (a : Int) : Int :=
  if a < p.tlo then a + p.grain else if p.thi < a then a - p.grain else a

/-- The accepted value of a CLAMP parameter (R62, R63). -/
def Param.clampValue (p : Param) (r : Int) : Int := p.corrected (p.candidate (p.clampRequest r))

/-- The CLAMP verdict (R63). -/
def Param.clampVerdict (p : Param) (r : Int) : Verdict :=
  let a := p.clampValue r
  if a = p.current then .held else if a = r then .pass a else .clamped a

/-- The budget is spent at guard time `t` (R66). -/
def Param.spent (p : Param) (t : Nat) : Bool :=
  match p.budget, p.openWindow t with
  | some (k, _), some (_, count) => decide (k ≤ count)
  | _, _ => false

/-- The budget test of R66, made of PASS and CLAMPED only. -/
def Param.budgeted (p : Param) (t : Nat) : Verdict → Verdict
  | .pass a => if p.spent t then .refused .budget else .pass a
  | .clamped a => if p.spent t then .refused .budget else .clamped a
  | v => v

/-- The verdict on a requested value at guard time `t` (R58 to R66). -/
def Param.verdict (p : Param) (r : Int) (t : Nat) : Verdict :=
  if r = p.current then .unchanged
  else p.budgeted t (if p.clamp then p.clampVerdict r else p.strictVerdict r)

/-- The value a parameter is encoded from (R67): the accepted one, or the current one. -/
def Verdict.value (c : Int) : Verdict → Int
  | .pass a => a
  | .clamped a => a
  | _ => c

/-- The change of a verified relay on one parameter at guard time `t` (R71, R64). -/
def Param.change (p : Param) (a : Int) (t : Nat) : Param :=
  { p with
    current := a
    window := match p.budget with
      | none => p.window
      | some _ => match p.openWindow t with
        | none => some (t, 1)
        | some (start, count) => some (start, count + 1) }

/-- A recipe value taken in by a commit or a revert (R73). -/
def Param.commit (p : Param) (v : Int) : Param := { p with base := v, current := v, window := none }

/-- A recipe value taken as baseline by SET ACTIVE FORMAT (R76). -/
def Param.rebase (p : Param) (v : Int) : Param := { p with base := v, window := none }

/-- The current value fits the band and the grain of a baseline `v` (R76). -/
def Param.fits (p : Param) (v : Int) : Bool :=
  between (max (v - p.low) p.hmin) (min (v + p.high) p.hmax) p.current && decide ((p.current - v) % (p.grain : Int) = 0)

/-- The result of a judgement (section 4.2). -/
inductive Judgement where
  | refuse (p : Policy) (offset : Nat)
  | noChange (words : List Word)
  | forward (words : List Word) (adjusted : Bool) (changes : List (Nat × Int))
  deriving DecidableEq, Repr

/-- One judged parameter of a write. -/
structure Judged where
  index : Nat
  param : Param
  verdict : Verdict
  deriving DecidableEq, Repr

/-- The offsets a write covers. -/
def offsets (o n : Nat) : List Nat := (List.range n).map (fun k => o + k)

/-- The lowest offset of a write that belongs to no parameter (R56). -/
def firstUnguarded (ps : List (Nat × Param)) (i : Station) (b o n : Nat) : Option Nat :=
  (offsets o n).find? (fun w => (paramAt ps i b w).isNone)

/-- A TWO parameter that does not lie wholly inside offsets o to o + n - 1 (R57). -/
def Param.splitBy (p : Param) (o n : Nat) : Bool :=
  p.wide && !(decide (o ≤ p.offset) && decide (p.offset + 1 < o + n))

/-- The lowest offset inside a write of a word of a split TWO parameter (R57). -/
def firstSplit (ps : List (Nat × Param)) (i : Station) (b o n : Nat) : Option Nat :=
  (offsets o n).find? (fun w => match paramAt ps i b w with
    | some (_, p) => p.splitBy o n
    | none => false)

/-- The parameters of a write in offset order, each with its verdict at guard time `t`. -/
def judgedParams (ps : List (Nat × Param)) (i : Station) (b o : Nat) (words : List Word) (t : Nat) : List Judged :=
  (List.range words.length).filterMap (fun k =>
    match paramAt ps i b (o + k) with
    | some (idx, p) =>
      if p.offset = o + k then
        some { index := idx, param := p, verdict := p.verdict (p.decode (words.getD k 0) (words.getD (k + 1) 0)) t }
      else none
    | none => none)

/-- The refusal of the refused parameter with the lowest offset (R68). -/
def firstRefused : List Judged → Option (Policy × Nat)
  | [] => none
  | j :: js => match j.verdict with
    | .refused p => some (p, j.param.offset)
    | _ => firstRefused js

/-- A verdict that moves its parameter (R70). -/
def Verdict.moves : Verdict → Bool
  | .pass _ => true
  | .clamped _ => true
  | _ => false

/-- A verdict that makes the reply ADJUSTED (R70). -/
def Verdict.adjusts : Verdict → Bool
  | .clamped _ => true
  | .held => true
  | _ => false

/-- The words of the judged parameters, in offset order (R67). -/
def acceptedWords : List Judged → List Word
  | [] => []
  | j :: js => j.param.encode (j.verdict.value j.param.current) ++ acceptedWords js

/-- The change list (R70). -/
def changeList : List Judged → List (Nat × Int)
  | [] => []
  | j :: js => if j.verdict.moves then (j.index, j.verdict.value j.param.current) :: changeList js else changeList js

/-- The judgement of a write to a TUNABLE block at guard time `t` (R56, R57, R68 to R70). -/
def judge (ps : List (Nat × Param)) (i : Station) (b o : Nat) (words : List Word) (t : Nat) : Judgement :=
  match firstUnguarded ps i b o words.length with
  | some w => .refuse .unguarded w
  | none =>
    match firstSplit ps i b o words.length with
    | some w => .refuse .split w
    | none =>
      let js := judgedParams ps i b o words t
      match firstRefused js with
      | some (p, w) => .refuse p w
      | none =>
        if js.any (fun j => j.verdict.moves) then
          .forward (acceptedWords js) (js.any (fun j => j.verdict.adjusts)) (changeList js)
        else .noChange (acceptedWords js)

/-! ### Fingerprints and images -/

/-- The plain sum of a sequence of words (R116). -/
def plainSum : List Word → Nat
  | [] => 0
  | w :: ws => w.toNat + plainSum ws

/-- The weighted sum of words whose first has weight `k` (R116). -/
def weightedSum (k : Nat) : List Word → Nat
  | [] => 0
  | w :: ws => k * w.toNat + weightedSum (k + 1) ws

/-- The fingerprint of a sequence of words (R116). -/
def fingerprint (ws : List Word) : Fingerprint :=
  (plainSum ws % Config.sumModulus, weightedSum 1 ws % Config.sumModulus)

/-- The open image with an id (R111). -/
def findImage (ims : List Image) (id : Nat) : Option Image := ims.find? (fun im => decide (im.id = id))

/-- The words reserved in the store, m (R111). -/
def reservedWords : List Image → Nat
  | [] => 0
  | im :: ims => im.length + reservedWords ims

/-- An image is complete when its filled count equals its length (R111). -/
def Image.complete (im : Image) : Bool := decide (im.words.length = im.length)

/-- Words added to an image; a full one receives its fingerprint (R113, R115). -/
def Image.place (im : Image) (ws : List Word) : Image :=
  let all := im.words ++ ws
  { im with words := all, print := if all.length = im.length then some (fingerprint all) else im.print }

/-- Changes the image with an id. -/
def modImage (ims : List Image) (id : Nat) (f : Image → Image) : List Image :=
  ims.map (fun im => if im.id = id then f im else im)

/-- The words of an image, none for an id that is not open. -/
def imageWords (ims : List Image) (id : Nat) : List Word :=
  match findImage ims id with
  | some im => im.words
  | none => []

/-- The fingerprint recorded for an image. -/
def imagePrint (ims : List Image) (id : Nat) : Option Fingerprint :=
  match findImage ims id with
  | some im => im.print
  | none => none

/-- The word at a position of the reference store, if an image's words reach it (R111). -/
def storeWord (ims : List Image) (pos : Nat) : Option Word :=
  match ims.find? (fun im => decide (im.position ≤ pos) && decide (pos < im.position + im.length)) with
  | some im => im.words[pos - im.position]?
  | none => none

/-! ### Recipes -/

/-- The block item a recipe holds for a station and block (R135). -/
def Recipe.blockAt (r : Recipe) (i : Station) (b : Nat) : Option RecipeBlock :=
  r.blocks.find? (fun it => decide (it.station = i) && decide (it.block = b))

/-- The station of a value item, that of its parameter (R136). -/
def valueStation (ps : List (Nat × Param)) (it : Nat × Int) : Option Station :=
  (tableGet ps it.1).map (fun p => p.station)

/-- The stations a recipe names, in ascending order (R141). -/
def recipeStations (ps : List (Nat × Param)) (r : Recipe) : List Station :=
  (List.finRange 8).filter (fun i =>
    r.blocks.any (fun it => decide (it.station = i)) || r.values.any (fun it => decide (valueStation ps it = some i)))

/-- The block items of one pass, station by station in ascending order, restricted to a set of stations (R144). -/
def passSteps (r : Recipe) (set : List Station) (pass : Nat) : List Step :=
  (set.map (fun i => (r.blocks.filter (fun it => decide (it.station = i) && decide (it.pass = pass))).map
    (fun it => Step.block i it.block it.pass it.image))).flatten

/-- The values of one station in a recipe. -/
def stationValues (ps : List (Nat × Param)) (r : Recipe) (i : Station) : List (Nat × Int) :=
  r.values.filter (fun it => decide (valueStation ps it = some i))

/-- The value steps of a set of stations (R144). -/
def valueSteps (ps : List (Nat × Param)) (r : Recipe) (set : List Station) : List Step :=
  (set.filter (fun i => !(stationValues ps r i).isEmpty)).map (fun i => Step.values i (stationValues ps r i))

/-- The work list of a recipe on a set of stations in ascending order (R144, R152). -/
def workList (ps : List (Nat × Param)) (r : Recipe) (set : List Station) : List Step :=
  passSteps r set 1 ++ passSteps r set 2 ++ passSteps r set 3 ++ valueSteps ps r set

/-! ### What the audit expects -/

/-- Words of a block from offset `k` on, every parameter word replaced by its current value (R119). -/
def overlay (ps : List (Nat × Param)) (i : Station) (b : Nat) (k : Nat) : List Word → List Word
  | [] => []
  | w :: ws =>
    (match paramAt ps i b k with
      | some (_, p) => (p.encode p.current).getD (k - p.offset) w
      | none => w) :: overlay ps i b (k + 1) ws

/-- The reference words of an entry (R126). -/
def referenceWords (ps : List (Nat × Param)) (ims : List Image) (e : AuditEntry) : List Word :=
  match e.cls with
  | some .fixed => match e.image with
    | some id => imageWords ims id
    | none => []
  | some .tunable => match e.image with
    | some id => overlay ps e.station e.block 0 (imageWords ims id)
    | none => []
  | some .format => match e.resolved with
    | some id => imageWords ims id
    | none => []
  | _ => []

/-- The image the active format's recipe gives for a station and block (R119). -/
def resolvedImage (rs : List (Nat × Recipe)) (format : Nat) (i : Station) (b : Nat) : Option Nat :=
  match tableGet rs format with
  | some r => (r.blockAt i b).map (fun it => it.image)
  | none => none

/-- The resolution of a FORMAT entry against a format (R119). An entry in DRIFT keeps its state; a SUSPENDED one stays
SUSPENDED as long as its hold lasts (R121); an entry made applicable again becomes UNCHECKED. -/
def AuditEntry.resolve (e : AuditEntry) (rs : List (Nat × Recipe)) (ims : List Image) (format : Nat) : AuditEntry :=
  if e.cls = some .format then
    match resolvedImage rs format e.station e.block with
    | some id =>
      { e with resolved := some id, expected := imagePrint ims id,
               state := if e.state = .notApplicable then .unchecked else e.state }
    | none =>
      { e with resolved := none, expected := none,
               state := if e.state = .drift ∨ e.state = .suspended then e.state else .notApplicable }
  else e

/-- The expected fingerprint of a TUNABLE entry (R119). -/
def tunablePrint (ps : List (Nat × Param)) (ims : List Image) (e : AuditEntry) : Option Fingerprint :=
  match e.image with
  | some id => some (fingerprint (overlay ps e.station e.block 0 (imageWords ims id)))
  | none => none

/-- An entry contains a word of a parameter (R120). -/
def AuditEntry.contains (e : AuditEntry) (p : Param) : Bool :=
  decide (p.station = e.station) && decide (p.block = e.block) && decide (p.offset < e.length)

/-- The scheduler may choose the entry (R124): not SUSPENDED, not NOT_APPLICABLE, and not a FORMAT entry in DRIFT whose
resolved image is none. -/
def AuditEntry.choosable (e : AuditEntry) : Bool :=
  !(decide (e.state = .suspended) || decide (e.state = .notApplicable)
    || (decide (e.cls = some .format) && decide (e.state = .drift) && decide (e.resolved = none)))

/-- The lowest offset, from `k` on, at which words read differ from the reference words. -/
def lowestDiff (k : Nat) : List Word → List Word → Option (Nat × Word × Word)
  | e :: es, a :: as => if e = a then lowestDiff (k + 1) es as else some (k, e, a)
  | _, _ => none

end Sys2Proof.Machine
end

