-- ==== Sys2Proof/Machine/Flags.lean ====
section
/-! DEFINITION. Reading and changing one record of the state, and the conditions that the spec derives from the state:
PERMIT (R38), ATTENTION (R167), cover posture (R37), the hold on a station (R48, R142), the level called for at an
inhibit terminal (R24), protection (R24). -/

namespace Sys2Proof.Machine

open Sys2Proof

/-! ### One record of the state -/

/-- The record of a station. -/
def State.stn (s : State) (i : Station) : StationRec := s.stations[i]
/-- Changes the record of a station. -/
def State.modStn (s : State) (i : Station) (f : StationRec → StationRec) : State :=
  { s with stations := s.stations.set i (f (s.stn i)) }
/-- The link record of a station. -/
def State.link (s : State) (i : Station) : LinkRec := s.links[i]
/-- Changes the link record of a station. -/
def State.modLink (s : State) (i : Station) (f : LinkRec → LinkRec) : State :=
  { s with links := s.links.set i (f (s.link i)) }
/-- An inhibit port. -/
def State.port (s : State) (p : Port) : InhibitPort := s.ports[p]
/-- Changes an inhibit port. -/
def State.modPort (s : State) (p : Port) (f : InhibitPort → InhibitPort) : State :=
  { s with ports := s.ports.set p (f (s.port p)) }
/-- An engineering port. -/
def State.engp (s : State) (e : EngId) : EngPort := s.eng[e]
/-- Changes an engineering port. -/
def State.modEng (s : State) (e : EngId) (f : EngPort → EngPort) : State :=
  { s with eng := s.eng.set e (f (s.engp e)) }
/-- An access channel. -/
def State.chan (s : State) (c : ChanId) : Channel := s.channels[c]
/-- Changes an access channel. -/
def State.setChan (s : State) (c : ChanId) (x : Channel) : State := { s with channels := s.channels.set c x }
/-- One of the three inputs. -/
def Inputs.get (ins : Inputs) : InputId → InputRec
  | .key => ins.key
  | .lineRun => ins.lineRun
  | .cover => ins.cover
/-- Changes one of the three inputs. -/
def Inputs.set (ins : Inputs) (x : InputId) (r : InputRec) : Inputs :=
  match x with
  | .key => { ins with key := r }
  | .lineRun => { ins with lineRun := r }
  | .cover => { ins with cover := r }
/-- Changes one of the three inputs of the state. -/
def State.setInput (s : State) (x : InputId) (r : InputRec) : State := { s with inputs := s.inputs.set x r }
/-- Changes the audit entry at an index. -/
def State.modEntry (s : State) (k : Nat) (f : AuditEntry → AuditEntry) : State := { s with audit := s.audit.modify k f }

/-- The eight stations in ascending logical number. -/
def allStations : List Station := List.finRange 8
/-- The eight ports in physical order. -/
def allPorts : List Port := List.finRange 8
/-- The four engineering ports. -/
def allEng : List EngId := List.finRange 4
/-- The two channels. -/
def allChannels : List ChanId := List.finRange 2

/-- The port of a station under the map in force (R1). -/
def State.portOf (s : State) (i : Station) : Option Port := allPorts.find? (fun p => decide (s.portMap[p] = some i))

/-- A station is mapped (R1). -/
def State.mapped (s : State) (i : Station) : Bool := (s.portOf i).isSome

/-- A station is ONLINE. -/
def State.online (s : State) (i : Station) : Bool := decide ((s.stn i).state = .online)

/-- A station is ONLINE or QUARANTINED. -/
def State.up (s : State) (i : Station) : Bool :=
  decide ((s.stn i).state = .online) || decide ((s.stn i).state = .quarantined)

/-! ### Derived conditions -/

/-- The class of a block (R42). -/
def State.classOf (s : State) (i : Station) (b : Nat) : Cls := Machine.classOf s.windows s.roster i b

/-- KEY is accepted at MAINT. -/
def State.keyMaint (s : State) : Bool := s.inputs.key.accepted

/-- The interlock of OPEN, APPLY, REVERT and RESTORE on the inputs: KEY at MAINT and LINE_RUN not active (R141). -/
def State.interlockOk (s : State) : Bool := s.inputs.key.accepted && !s.inputs.lineRun.accepted

/-- Cover posture (R37). -/
def State.coverPosture (s : State) : Bool :=
  decide (s.stage = .guarding) && s.inputs.cover.accepted && !s.inputs.key.accepted

/-- A station is held by the changeover controller (R48, R142). -/
def State.held (s : State) (i : Station) : Bool :=
  decide (s.changeover.state ≠ .idle) && decide (i ∈ s.changeover.stations)

/-- A station is required (R38). -/
def State.required (s : State) (i : Station) : Bool := s.roster[i].required

/-- PERMIT (R38, R39). -/
def State.permit (s : State) : Bool :=
  decide (s.power = .running) && decide (s.stage = .guarding) && decide (s.changeover.state = .idle)
    && allStations.all (fun i => !s.required i || (s.online i && decide ((s.stn i).format ≠ .mixed)))
    && s.audit.all (fun e => !(s.required e.station && decide (e.state = .drift)))

/-- ATTENTION (R167). -/
def State.attention (s : State) : Bool :=
  decide (s.power = .running) && !s.events.isEmpty && decide (s.holdoff = none)

/-- The level a jumper's asserted output has at the terminal (R24). -/
def jumperLevel : Jumper → Bool
  | .high => true
  | .highUnmonitored => true
  | .low => false
  | .none => false

/-- The terminal is sensed (R24). -/
def jumperMonitored : Jumper → Bool
  | .high => true
  | .low => true
  | .highUnmonitored => false
  | .none => false

/-- The level the driven level calls for at the terminal (R24, R25). -/
def InhibitPort.calledFor (p : InhibitPort) : Bool :=
  match p.driven with
  | .asserted => jumperLevel p.jumper
  | .released => !jumperLevel p.jumper

/-- A station is unprotected: the jumper of its port is NONE (R5, R24). An unmapped station has no port and so no jumper,
and R5 does not say what READ STATION returns for it: not unprotected (DESIGN CHOICE, log entry 45). -/
def State.unprotected (s : State) (i : Station) : Bool :=
  match s.portOf i with
  | some p => decide ((s.port p).jumper = .none)
  | none => false

/-- The entry whose check is in progress (R133). -/
def State.checking (s : State) (k : Nat) : Bool :=
  match s.sched.check with
  | some c => decide (c.entry = k)
  | none => false

end Sys2Proof.Machine
end

