-- ==== Sys2Proof/Machine/Ops.lean ====
section
/-! DEFINITION. The shared operations under every meaning: events (R165), sweep requests (R123), the inhibit unit
(R26 to R32), the link arbiter's records and the sending of requests (R7, R19, R20), replies to tools (R83, R104),
current values and the audit's expectations (R71, R73, R120). -/

namespace Sys2Proof.Machine

open Sys2Proof

/-! ### Events -/

/-- The kind of an event: the constructor of its detail. -/
def Detail.kind : Detail → EventKind
  | .linkUp _ _ => .linkUp
  | .linkDown _ => .linkDown
  | .quarantined _ => .quarantined
  | .unexpectedChange _ => .unexpectedChange
  | .drift _ => .drift
  | .relayTrouble _ _ _ => .relayTrouble
  | .attached _ => .attached
  | .detached _ _ => .detached
  | .refusal _ _ _ => .refusal
  | .lockout _ _ => .lockout
  | .inputChange _ => .inputChange
  | .operationDone _ _ _ _ => .operationDone
  | .accessDone _ _ => .accessDone
  | .restarted _ => .restarted

/-- The key of an event (R165). -/
def Event.key (e : Event) : Source × EventKind := (e.source, e.detail.kind)

/-- An event gathered once more (R165). -/
def Event.again (e : Event) (t : Nat) (d : Detail) : Event :=
  { e with last := t, detail := d, count := min 255 (e.count + 1) }

/-- Posting at guard time `t` (R165): gathered into the record with the same key, or added at the end. -/
def postEvent (t : Nat) (src : Source) (d : Detail) : List Event → List Event
  | [] => [{ source := src, detail := d, first := t, last := t, count := 1 }]
  | e :: es => if e.key = (src, d.kind) then e.again t d :: es else e :: postEvent t src d es

/-- A block posts an event (R165). -/
def post (src : Source) (d : Detail) (s : State) : State := { s with events := postEvent s.guardTime src d s.events }

/-! ### The priority sweep queue -/

/-- The queue after a request for a station (R123). -/
def queueSweep (i : Station) : List Sweep → List Sweep
  | [] => [{ station := i, started := false, again := false, taken := none }]
  | q :: qs => if q.station = i then { q with again := q.again || q.started } :: qs else q :: queueSweep i qs

/-- A request to queue a sweep, taken in GUARDING only (R123). -/
def requestSweep (i : Station) (s : State) : State :=
  if s.stage = .guarding then { s with sched := { s.sched with sweeps := queueSweep i s.sched.sweeps } } else s

/-- A station leaves the queue when it leaves ONLINE (R123). -/
def dropSweep (i : Station) (s : State) : State :=
  { s with sched := { s.sched with sweeps := s.sched.sweeps.filter (fun q => decide (q.station ≠ i)) } }

/-! ### The inhibit unit -/

/-- The monitor compares on this port: HIGH or LOW, not in FAULT, its station ONLINE or QUARANTINED (R30). -/
def State.comparing (s : State) (p : Port) : Bool :=
  jumperMonitored (s.port p).jumper &&
    (match s.portMap[p] with
     | some i => s.up i
     | none => false)

/-- The monitor state after a change of what it compares (R30). -/
def monitorNext (p : InhibitPort) (comparing : Bool) : Monitor :=
  match p.monitor with
  | .fault => .fault
  | m =>
    if comparing then
      if p.sensed = p.calledFor then .agree
      else match m with
        | .disagree t => .disagree t
        | _ => .disagree 0
    else .idle

/-- The monitor follows (R30). -/
def syncMonitor (p : Port) (s : State) : State :=
  s.modPort p (fun r => { r with monitor := monitorNext r (s.comparing p) })

/-- A station's state changes, and the monitor of its port follows (R30). -/
def setStState (i : Station) (st : StState) (s : State) : State :=
  let s := s.modStn i (fun r => { r with state := st })
  match s.portOf i with
  | some p => syncMonitor p s
  | none => s

/-- The output reasserted: driven level ASSERTED, no holder, both timers stopped (R28, R29, R30, R32). -/
def InhibitPort.reasserted (p : InhibitPort) : InhibitPort :=
  { p with driven := .asserted, holder := none, limitTimer := none, settleTimer := none }

/-- The three answers of R26; a granted release says whether the port is ready at the grant (R27). -/
inductive ReleaseAnswer where
  | notNeeded
  | granted (ready : Bool)
  | refused
  deriving DecidableEq, Repr

/-- The answer to an operation that asks for a release on its station's port (R26). -/
def releaseAnswer (i : Station) (s : State) : ReleaseAnswer :=
  match s.portOf i with
  | none => .refused
  | some p =>
    if (s.port p).jumper = .none then .notNeeded
    else if s.online i ∧ (s.port p).monitor ≠ .fault ∧ (s.port p).holder = none then
      .granted (decide (s.roster[i].releaseSettle = 0))
    else .refused

/-- The grant's effect (R26, R27). -/
def grantRelease (i : Station) (h : ReleaseHolder) (s : State) : State :=
  match s.portOf i with
  | none => s
  | some p =>
    let settle := s.roster[i].releaseSettle
    syncMonitor p (s.modPort p (fun r =>
      { r with holder := some h, driven := .released, limitTimer := some Config.releaseLimit,
               settleTimer := if settle = 0 then none else some settle }))

/-- The holder returns its release (R28); if it holds none, nothing happens. -/
def returnRelease (i : Station) (h : ReleaseHolder) (s : State) : State :=
  match s.portOf i with
  | none => s
  | some p =>
    if (s.port p).holder = some h then syncMonitor p (s.modPort p (fun r => r.reasserted)) else s

/-- A release held on a station that leaves ONLINE ends at once (R32). -/
def dropRelease (i : Station) (s : State) : State :=
  match s.portOf i with
  | none => s
  | some p =>
    if (s.port p).holder.isSome then syncMonitor p (s.modPort p (fun r => r.reasserted)) else s

/-! ### Link and arbiter -/

/-- The guard sends a request on an idle link (R7). -/
def sendRequest (i : Station) (q : StationRequest) (owner : LinkUser) (s : State) : State :=
  let seq := (s.stn i).nextSeq
  (s.modStn i (fun r => { r with nextSeq := r.nextSeq + 1#8 })).modLink i (fun l =>
    { l with inFlight := some { seq := seq, request := q, owner := some owner, timeout := s.roster[i].replyTimeout } })

/-- Priorities of R19, highest first. -/
def LinkUser.rank : LinkUser → Nat
  | .bringUp => 0
  | .changeover => 1
  | .tool => 2
  | .access _ => 3
  | .audit => 4
  | .presence => 5

/-- The waiter of highest priority, among equals the one placed first (R19). -/
def pickWaiter : List LinkUser → Option LinkUser
  | [] => none
  | u :: us => match pickWaiter us with
    | none => some u
    | some v => if v.rank < u.rank then some v else some u

/-- A waiter of this kind may be placed in this state of its station (R4, R20). -/
def mayPlace (st : StState) : LinkUser → Bool
  | .bringUp => false
  | .access _ => decide (st = .online) || decide (st = .quarantined)
  | .presence => decide (st = .online) || decide (st = .quarantined)
  | _ => decide (st = .online)

/-- An operation joins the waiters (R19). -/
def addWaiter (i : Station) (u : LinkUser) (s : State) : State :=
  s.modLink i (fun l => { l with waiters := l.waiters ++ [u] })

/-- An operation that has ended leaves the arbiter (R20): as holder it gives up the link, and its transaction in flight
keeps the link occupied with nobody to take the result; as waiter it leaves the list. -/
def dropUser (i : Station) (u : LinkUser) (s : State) : State :=
  s.modLink i (fun l =>
    { l with
      holder := if l.holder = some u then none else l.holder
      waiters := l.waiters.filter (fun v => decide (v ≠ u))
      inFlight := l.inFlight.map (fun t => if t.owner = some u then { t with owner := none } else t) })

/-- The operation stands in the arbiter of a station, as holder or waiter. -/
def State.engaged (s : State) (i : Station) (u : LinkUser) : Bool :=
  decide ((s.link i).holder = some u) || decide (u ∈ (s.link i).waiters)

/-- A link's poll interval starts (R15). -/
def startPoll (i : Station) (s : State) : State :=
  let ms := if 0 < (s.stn i).rate then min s.timing.pollInterval Config.fastPoll else s.timing.pollInterval
  s.modLink i (fun l => { l with pollTimer := some ms })

/-- A station in DOWN: bring-up holds the link and the first IDENT is 1000 ms away (R10, R19). -/
def startBringUp (i : Station) (s : State) : State :=
  s.modLink i (fun l =>
    { l with holder := some .bringUp, waiters := [], identTimer := some Config.identWait, training := none,
             pollTimer := none })

/-! ### Replies to tools -/

/-- A port hands a reply to its transmitter (R104). -/
def sendTool (e : EngId) (tag : Byte) (r : ToolReply) (s : State) : State :=
  s.modEng e (fun p => { p with tx := p.tx ++ [{ tag := tag, reply := r, remaining := frameTime r.body.length }] })

/-- The end of a tool operation reaches its port (R83, R104): discarded unless the port still waits for it. -/
def deliver (i : Station) (op : ToolOp) (r : ToolReply) (s : State) : State :=
  if (s.engp op.port).state = .waiting ∧ (s.engp op.port).attachment = op.attachment
      ∧ (s.engp op.port).awaited = some i then
    (sendTool op.port op.tag r s).modEng op.port (fun p => { p with awaited := none, state := .ready })
  else s

/-! ### Current values and expectations -/

/-- Recomputes the expected fingerprint of every TUNABLE entry with a word of a parameter named (R120). -/
def recompute (idxs : List Nat) (s : State) : State :=
  { s with audit := s.audit.map (fun e =>
      if e.cls = some .tunable ∧ idxs.any (fun k => match tableGet s.params k with
          | some p => e.contains p
          | none => false)
      then { e with expected := tunablePrint s.params s.images e } else e) }

/-- The change list of a verified relay (R71). -/
def takeChanges (changes : List (Nat × Int)) (s : State) : State :=
  recompute (changes.map (fun c => c.1))
    { s with params := changes.foldl (fun ps c => tableMod ps c.1 (fun p => p.change c.2 s.guardTime)) s.params }

/-- The values of a commit or of a successful revert (R73). -/
def commitValues (vs : List (Nat × Int)) (s : State) : State :=
  recompute (vs.map (fun c => c.1))
    { s with params := vs.foldl (fun ps c => tableMod ps c.1 (fun p => p.commit c.2)) s.params }

end Sys2Proof.Machine
end

