-- ==== Sys2Proof/Machine/Grant.lean ====
section
/-! DEFINITION. The first and next transactions of every operation that uses a station link (R79 to R81, R94, R126,
R127, R145, R148, R163), and the grant of the link (R19), which starts the work of the waiter it goes to. -/

namespace Sys2Proof.Machine

open Sys2Proof

/-! ### The tool slot -/

/-- Changes the operation in a station's slot. -/
def modSlot (i : Station) (f : ToolOp → ToolOp) (s : State) : State :=
  s.modStn i (fun r => { r with slot := r.slot.map f })

/-- The next WRITE frame of a relay (R80). -/
def sendToolWrite (i : Station) (op : ToolOp) (s : State) : State :=
  let n := chunk (s.stn i).wordsPerFrame (op.words.length - op.acked)
  modSlot i (fun op => { op with phase := .writing, writeSent := true })
    (sendRequest i (.write op.block (op.offset + op.acked) ((op.words.drop op.acked).take n)) .tool s)

/-- The next READ frame of a read-back or of a tool read (R81, R94). -/
def sendToolRead (i : Station) (op : ToolOp) (phase : Phase) (s : State) : State :=
  let n := chunk (s.stn i).wordsPerFrame (op.count - op.got.length)
  modSlot i (fun op => { op with phase := phase })
    (sendRequest i (.read op.block (op.offset + op.got.length) n) .tool s)

/-- The outcomes of a write relay (R82 to R85). -/
inductive RelayOutcome where
  | verified
  | verifyFailed (offset : Nat) (written read : Word)
  | unconfirmed (c : Cause)
  | failed (c : Cause)
  deriving DecidableEq, Repr

/-- Steps 1 to 3 of R82, up to the passing of the link. -/
def relayClose (i : Station) (s : State) : State :=
  dropUser i .tool ((returnRelease i (.tool i) s).modStn i (fun r => { r with slot := none }))

/-- The reply an outcome gives the tool (R83). -/
def relayReply (op : ToolOp) : RelayOutcome → ToolReply
  | .verified => if op.adjusted then .adjusted op.block op.offset op.words else .done op.block op.offset op.words
  | .verifyFailed o w r => .verifyFailed op.block o w r
  | .unconfirmed c => .unconfirmed op.block c op.acked
  | .failed c => .failed op.block c

/-- The detail of RELAY_TROUBLE for the two outcomes that post it (R81, R84). -/
def relayTrouble (op : ToolOp) : RelayOutcome → Option Trouble
  | .verifyFailed o w r => some (.verifyFailed o w r)
  | .unconfirmed c => some (.unconfirmed c op.acked)
  | _ => none

/-- Steps 4 to 7 of R82: the change list, the sweep, the event, the reply. -/
def relayReport (i : Station) (op : ToolOp) (o : RelayOutcome) (s : State) : State :=
  let s := if o = .verified ∧ op.readBack then takeChanges op.changes s else s
  let s := match relayTrouble op o with
    | some t =>
      post (.station i) (.relayTrouble t op.port op.block) (if s.online i then requestSweep i s else s)
    | none => s
  deliver i op (relayReply op o) s

/-- A granted tool operation starts (R79, R94). A refused release ends a relay FAILED with cause INHIBIT (R85). -/
def startTool (i : Station) (s : State) : State :=
  match (s.stn i).slot with
  | none => dropUser i .tool s
  | some op =>
    if op.write then
      match releaseAnswer i s with
      | .notNeeded => sendToolWrite i op s
      | .granted true => sendToolWrite i op (grantRelease i (.tool i) s)
      | .granted false => modSlot i (fun op => { op with phase := .settling }) (grantRelease i (.tool i) s)
      | .refused => relayReport i op (.failed .inhibit) (relayClose i s)
    else sendToolRead i op .reading s

/-! ### Access channels -/

/-- The next READ frame of a channel (R163). -/
def sendAccessRead (c : ChanId) (w : AccessWork) (s : State) : State :=
  sendRequest w.station
    (.read w.block (w.offset + w.got.length) (chunk (s.stn w.station).wordsPerFrame (w.count - w.got.length)))
    (.access c) s

/-- A WAITING channel granted the link becomes RUNNING (R163). -/
def startAccess (i : Station) (c : ChanId) (s : State) : State :=
  match (s.chan c).work with
  | none => dropUser i (.access c) s
  | some w => sendAccessRead c w (s.setChan c { state := .running, work := some w })

/-! ### Audit checks -/

/-- Changes the check in progress. -/
def modCheck (f : Check → Check) (s : State) : State :=
  { s with sched := { s.sched with check := s.sched.check.map f } }

/-- The next READ frame of a check (R126, R127). -/
def sendCheckRead (e : AuditEntry) (c : Check) (phase : CheckPhase) (s : State) : State :=
  modCheck (fun c => { c with phase := phase })
    (sendRequest c.station (.read e.block c.got.length (chunk (s.stn c.station).wordsPerFrame (e.length - c.got.length)))
      .audit s)

/-- A check granted the link sends SUM, or READ for a READ entry and on a station whose sums are unreliable (R126,
R127). -/
def startAudit (i : Station) (s : State) : State :=
  match s.sched.check with
  | none => dropUser i .audit s
  | some c =>
    match s.audit[c.entry]? with
    | none => dropUser i .audit s
    | some e =>
      if e.readMode ∨ (s.stn c.station).sumUnreliable then sendCheckRead e c .reading s
      else modCheck (fun c => { c with phase := .summing }) (sendRequest c.station (.sum e.block e.length) .audit s)

/-! ### Steps of the changeover controller -/

/-- Changes the controller's record. -/
def modCh (f : Changeover → Changeover) (s : State) : State := { s with changeover := f s.changeover }

/-- The step in progress. -/
def Changeover.step (c : Changeover) : Option Step :=
  match c.position with
  | some k => c.work[k]?
  | none => none

/-- The station of a step. -/
def Step.station : Step → Station
  | .block i _ _ _ => i
  | .values i _ => i
  | .restore i _ _ => i

/-- The words of a block or restore step (R145, R154). -/
def stepWords (ims : List Image) : Step → List Word
  | .block _ _ _ im => imageWords ims im
  | .restore _ _ ws => ws
  | .values _ _ => []

/-- The next WRITE of a step of which `done` words, or values, are written: block, offset and words (R145, R146). -/
def stepWrite (s : State) (st : Step) (done : Nat) : Option (Nat × Nat × List Word) :=
  match st with
  | .values _ items =>
    match items[done]? with
    | some (k, v) => match tableGet s.params k with
      | some p => some (p.block, p.offset, p.encode v)
      | none => none
    | none => none
  | .block i b _ im =>
    let rest := (imageWords s.images im).drop done
    if rest = [] then none else some (b, done, rest.take (s.stn i).wordsPerFrame)
  | .restore i b ws =>
    let rest := ws.drop done
    if rest = [] then none else some (b, done, rest.take (s.stn i).wordsPerFrame)

/-- What is done of a step after a frame of `n` words (R145, R146). -/
def stepAdvance (st : Step) (done n : Nat) : Nat :=
  match st with
  | .values _ _ => done + 1
  | _ => done + n

/-- The next READ of a step being verified: block, offset and count (R148, R154). -/
def stepRead (s : State) (st : Step) (done : Nat) : Option (Nat × Nat × Nat) :=
  match stepWrite s st done with
  | some (b, o, ws) => some (b, o, ws.length)
  | none => none

/-- A granted step of the controller: STATE while APPLYING (R145), the first READ while VERIFYING (R148). -/
def startStep (i : Station) (s : State) : State :=
  match s.changeover.state, s.changeover.step with
  | .applying, some _ => modCh (fun c => { c with phase := .checking }) (sendRequest i .state .changeover s)
  | .verifying, some st =>
    match stepRead s st s.changeover.done with
    | some (b, o, n) => modCh (fun c => { c with phase := .reading }) (sendRequest i (.read b o n) .changeover s)
    | none => dropUser i .changeover s
  | _, _ => dropUser i .changeover s

/-! ### The grant -/

/-- The work of the operation that has just become holder. -/
def startUser (i : Station) (u : LinkUser) (s : State) : State :=
  match u with
  | .bringUp => s
  | .presence => sendRequest i .state .presence s
  | .access c => startAccess i c s
  | .audit => startAudit i s
  | .tool => startTool i s
  | .changeover => startStep i s

/-- The waiter of highest priority becomes holder (R19). -/
def takeWaiter (i : Station) (u : LinkUser) (s : State) : State :=
  s.modLink i (fun l => { l with holder := some u, waiters := l.waiters.erase u })

/-- An idle link passes to a waiter, and on to the next as long as the one it went to ends at once (R19, R85). -/
def grantLoop (i : Station) : Nat → State → State
  | 0, s => s
  | n + 1, s =>
    if (s.link i).holder = none ∧ (s.link i).inFlight = none then
      match pickWaiter (s.link i).waiters with
      | none => s
      | some u => grantLoop i n (startUser i u (takeWaiter i u s))
    else s

/-- The link of a station passes, if it is idle and somebody waits (R19). Each round takes one waiter off the list. -/
def grant (i : Station) (s : State) : State := grantLoop i ((s.link i).waiters.length + 1) s

/-- An operation is placed with the arbiter (R19): holder at once when nothing stands before it. -/
def place (i : Station) (u : LinkUser) (s : State) : State := grant i (addWaiter i u s)

/-- An operation ends in the arbiter and the link passes (R20). -/
def leave (i : Station) (u : LinkUser) (s : State) : State := grant i (dropUser i u s)

/-- A write relay ends (R82): steps 1 to 3, the passing of the link, steps 4 to 7. -/
def endRelay (i : Station) (op : ToolOp) (o : RelayOutcome) (s : State) : State :=
  relayReport i op o (grant i (relayClose i s))

/-- A tool read ends (R94, R95): slot emptied, link given up, reply. -/
def endToolRead (i : Station) (op : ToolOp) (r : ToolReply) (s : State) : State :=
  deliver i op r (grant i (relayClose i s))

/-- A presence poll is placed, unless one waits or is in flight (R15). -/
def placePresence (i : Station) (s : State) : State :=
  if s.up i ∧ ¬ s.engaged i .presence then place i .presence s else s

/-- An image at the end of the work of channel `c` (R114): a capture's words are placed in it at once, or it is left as
it was, open and empty; an image that `c` is not capturing is no concern of `c`'s. -/
def Image.captureEnds (c : ChanId) (got : List Word) (failure : Option Cause) (im : Image) : Image :=
  if im.capture = some c then
    match failure with
    | none => { im.place got with capture := none }
    | some _ => { im with capture := none }
  else im

/-- A channel's work ends (R163): the link given up, the result set, DONE, ACCESS_DONE. A
capture's image takes its end (R114). -/
def endAccess (c : ChanId) (w : AccessWork) (failure : Option Cause) (s : State) : State :=
  let s := leave w.station (.access c) s
  let s := match w.image with
    | none => s
    | some id =>
      { s with images := modImage s.images id (Image.captureEnds c w.got failure) }
  let result : AccessResult := match failure with
    | some f => .failed f
    | none => match w.kind with
      | .directRead => .words w.got
      | .capture => .complete
  let kept := match failure with
    | some _ => []
    | none => w.got
  post (.channel c) (.accessDone w.kind failure)
    (s.setChan c { state := .done, work := some { w with got := kept, result := some result } })

end Sys2Proof.Machine
end

