-- ==== Sys2Proof/Machine/Audit.lean ====
section
/-! DEFINITION. The audit engine: the scheduler (R122 to R124), the beginning and the end of a check (R125, R128 to
R130), holds and releases (R121), and the meaning of AUDIT_PACE_EXPIRY. -/

namespace Sys2Proof.Machine

open Sys2Proof

/-! ### The scheduler -/

/-- The indices of a list's entries that a test takes. -/
def indicesOf (test : AuditEntry → Bool) (es : List AuditEntry) : List Nat :=
  (List.range es.length).filter (fun k => match es[k]? with
    | some e => test e
    | none => false)

/-- The next entry of a station's sweep, after the last one it has taken (R124). -/
def nextOfSweep (es : List AuditEntry) (i : Station) (taken : Option Nat) : Option Nat :=
  (indicesOf (fun e => decide (e.station = i) && e.choosable) es).find? (fun k => match taken with
    | some t => decide (t < k)
    | none => true)

/-- The choice from the priority sweep queue, and the queue after it (R124): a sweep that is done leaves the queue, or
begins again once if its again flag is set. -/
def chooseSweep (es : List AuditEntry) : List Sweep → List Sweep × Option Nat
  | [] => ([], none)
  | q :: qs =>
    match nextOfSweep es q.station q.taken with
    | some k => ({ q with started := true } :: qs, some k)
    | none =>
      if q.again then
        match nextOfSweep es q.station none with
        | some k => ({ q with started := true, again := false, taken := none } :: qs, some k)
        | none => chooseSweep es qs
      else chooseSweep es qs

/-- The choice of the round robin (R124): the first entry after the cursor, wrapping, whose station is ONLINE. -/
def chooseRound (s : State) : Option Nat :=
  let ks := indicesOf (fun e => s.online e.station && e.choosable) s.audit
  match s.sched.cursor with
  | none => ks.head?
  | some c => match ks.find? (fun k => decide (c < k)) with
    | some k => some k
    | none => ks.head?

/-- The pace timer starts (R122). -/
def startPace (s : State) : State :=
  { s with sched := { s.sched with paceTimer := some s.timing.auditPace } }

/-- A chosen entry's check begins (R122, R125): in progress, the pace timer started afresh, the waiter placed. A station
that takes no AUDIT waiter is not chosen in any run; the check then ends without a result. -/
def beginCheck (k : Nat) (bySweep : Bool) (s : State) : State :=
  match s.audit[k]? with
  | none => startPace s
  | some e =>
    if mayPlace (s.stn e.station).state .audit then
      place e.station .audit (startPace
        { s with sched := { s.sched with
            check := some { entry := k, station := e.station, phase := .waiting, got := [], bySweep := bySweep,
                            discard := false } } })
    else startPace s

/-- The scheduler comes to choose (R122, R124). -/
def choose (s : State) : State :=
  let (queue, pick) := chooseSweep s.audit s.sched.sweeps
  let s := { s with sched := { s.sched with sweeps := queue } }
  match pick with
  | some k => beginCheck k true s
  | none => match chooseRound s with
    | some k => beginCheck k false { s with sched := { s.sched with cursor := some k } }
    | none => startPace s

/-- The choice is made at the later of the end of the check and the expiry of the pace timer (R122). -/
def chooseIfDue (s : State) : State :=
  if s.stage = .guarding ∧ s.sched.check = none ∧ s.sched.paceTimer = none then choose s else s

/-! ### The end of a check -/

/-- How a check ends (R126 to R129). -/
inductive CheckResult where
  | same
  | sameUnreliable
  | different (offset : Nat) (expected actual : Word) (seen : Fingerprint)
  | unreachable
  | nothing
  deriving DecidableEq, Repr

/-- The effect of a result on its entry at guard time `t` (R128, R129). -/
def AuditEntry.after (e : AuditEntry) (r : CheckResult) (t : Nat) : AuditEntry :=
  match r with
  | .nothing => e
  | .unreachable =>
    { e with lastCheck := some t, lastOutcome := some .unreachable,
             state := if e.state = .drift then .drift else .unreachable }
  | .same =>
    { e with lastCheck := some t, lastOutcome := some .matched,
             state := if e.state = .drift then .drift else .matched }
  | .sameUnreliable =>
    { e with lastCheck := some t, lastOutcome := some .matched,
             state := if e.state = .drift then .drift else .matched }
  | .different o ex ac seen =>
    if e.state = .drift then { e with lastCheck := some t, lastOutcome := some .differ }
    else
      { e with lastCheck := some t, lastOutcome := some .differ, state := .drift,
               drift := some { offset := o, expected := ex, actual := ac, seen := seen, time := t } }

/-- A result creates a drift record (R128). -/
def drifts (e : AuditEntry) : CheckResult → Bool
  | .different _ _ _ _ => decide (e.state ≠ .drift)
  | _ => false

/-- The entry is recorded as taken in the sweep at the head of the queue (R130). -/
def recordTaken (c : Check) : List Sweep → List Sweep
  | q :: qs => if c.bySweep ∧ q.station = c.station then { q with taken := some c.entry } :: qs else q :: qs
  | [] => []

/-- The check in progress ends (R130): the link, the sum-unreliable flag, the entry, the DRIFT event, the sweep's
record; then the next choice. -/
def endCheck (r : CheckResult) (s : State) : State :=
  match s.sched.check with
  | none => s
  | some c =>
    let r := if c.discard then CheckResult.nothing else r
    let s := leave c.station .audit s
    let s := if r = .sameUnreliable then s.modStn c.station (fun st => { st with sumUnreliable := true }) else s
    let drifted := match s.audit[c.entry]? with
      | some e => drifts e r
      | none => false
    let s := s.modEntry c.entry (fun e => e.after r s.guardTime)
    let s := if drifted then post (.station c.station) (.drift c.entry) s else s
    chooseIfDue { s with sched := { s.sched with check := none, sweeps := recordTaken c s.sched.sweeps } }

/-- The result of the words read by a check (R126, R127), compared with the reference words and the expected
fingerprint as they stand when the result is taken (R120). -/
def readResult (s : State) (e : AuditEntry) (confirming : Bool) (ws : List Word) : CheckResult :=
  match e.expected with
  | none => .nothing
  | some f =>
    if ¬ confirming ∧ fingerprint ws = f then .same
    else match lowestDiff 0 (referenceWords s.params s.images e) ws with
      | some (o, ex, ac) => .different o ex ac (fingerprint ws)
      | none => if confirming then .sameUnreliable else .same

/-- The entry as the check in progress compares it: with the image the check keeps, if it keeps one (R119). -/
def AuditEntry.seenBy (e : AuditEntry) (c : Check) (ims : List Image) : AuditEntry :=
  match c.kept with
  | none => e
  | some id => { e with resolved := some id, expected := imagePrint ims id }

/-! ### Holds -/

/-- At a hold every entry of a held station that is not in DRIFT becomes SUSPENDED (R121). -/
def suspendEntries (set : List Station) (s : State) : State :=
  { s with audit := s.audit.map (fun e =>
      if e.station ∈ set ∧ e.state ≠ .drift then { e with state := .suspended } else e) }

/-- A check of a held station's entry is withdrawn while it waits, and otherwise runs on with its result to be
discarded (R121). -/
def holdCheck (set : List Station) (s : State) : State :=
  match s.sched.check with
  | none => s
  | some c =>
    if c.station ∈ set then
      if (s.link c.station).holder = some .audit then modCheck (fun c => { c with discard := true }) s
      else endCheck .nothing s
    else s

/-- The audit engine at a hold (R121). -/
def auditHold (set : List Station) (s : State) : State := holdCheck set (suspendEntries set s)

/-- The audit engine at a release (R121): SUSPENDED entries become UNCHECKED, a FORMAT entry is resolved again. -/
def auditRelease (set : List Station) (s : State) : State :=
  { s with audit := s.audit.map (fun e =>
      if e.station ∈ set ∧ e.state = .suspended then
        ({ e with state := .unchecked, lastCheck := none, lastOutcome := none } : AuditEntry).resolve s.recipes s.images
          s.activeFormat
      else if e.station ∈ set then e.resolve s.recipes s.images s.activeFormat
      else e) }

/-- What a new resolution makes of a check in progress, from its entry before and after it (R119, log entry 40): an
entry left without an image has the result discarded; an entry in DRIFT takes another image for later checks, so the
check keeps the image it began with. -/
def Check.atResolution (c : Check) (before after : AuditEntry) : Check :=
  if after.cls = some .format ∧ after.resolved = none then { c with discard := true }
  else if after.cls = some .format ∧ after.state = .drift then
    { c with kept := if c.kept.isSome then c.kept else before.resolved }
  else c

/-- Every FORMAT entry resolved against the active format, and the check in progress told of it (R119). -/
def resolveAll (s : State) : State :=
  let check := s.sched.check.map (fun c => match s.audit[c.entry]? with
    | some e => c.atResolution e (e.resolve s.recipes s.images s.activeFormat)
    | none => c)
  { s with audit := s.audit.map (fun (e : AuditEntry) => e.resolve s.recipes s.images s.activeFormat),
           sched := { s.sched with check := check } }

/-! ### Commands -/

/-- AUDIT_PACE_EXPIRY (R122). -/
def auditPaceExpiry (s : State) : State :=
  if s.sched.paceTimer.isSome then chooseIfDue { s with sched := { s.sched with paceTimer := none } } else s

end Sys2Proof.Machine
end

