-- ==== Sys2Proof/Machine/Controller.lean ====
section
/-! DEFINITION. The changeover controller at work: the steps of APPLYING and VERIFYING (R145, R146, R148, R154), their
failures (R147, R151, R154), and the endings (R149, R152, R154). -/

namespace Sys2Proof.Machine

open Sys2Proof

/-! ### Failures -/

/-- What the failure record names of the step in progress (R139, R147): a block with its pass, or the parameter being
written or read. With no value being written or read (waiting, STATE check, release, settle) it is the next one to be
written, the first of the step (the spec names none: DESIGN CHOICE, log entry 39). -/
def stepItem (st : Step) (done : Nat) : Option FailItem :=
  match st with
  | .block _ b _ _ => some (.block b)
  | .values _ items => (items[done]?).map (fun it => .parameter it.1)
  | .restore _ b _ => some (.block b)

/-- The pass of a step. -/
def stepPass : Step → Option Nat
  | .block _ _ p _ => some p
  | _ => none

/-- A failure that names the step in progress (R147, R148). -/
def failureHere (cause : Cause) (seen : Option Seen) (s : State) : Failure :=
  match s.changeover.step with
  | some st =>
    { cause := cause, station := some st.station, item := stepItem st s.changeover.done, pass := stepPass st, seen := seen }
  | none => { cause := cause, station := none, item := none, pass := none, seen := seen }

/-- A failure that names a station of S that left ONLINE (R147). -/
def failureAt (cause : Cause) (i : Station) : Failure :=
  { cause := cause, station := some i, item := none, pass := none, seen := none }

/-- The controller gives up what it holds for its step (R151, first step): the release, and its place in the arbiter. -/
def dropStep (s : State) : State :=
  match s.changeover.step with
  | some st => leave st.station .changeover (returnRelease st.station .changeover s)
  | none => s

/-- Format state MIXED on every station of a set (R151). -/
def setFormats (set : List Station) (f : FormatState) (s : State) : State :=
  set.foldl (fun s i => s.modStn i (fun r => { r with format := f })) s

/-- The kind of the operation, for its events. -/
def Changeover.kindOf (c : Changeover) : ChKind := c.kind.getD .changeover

/-- A failed changeover or revert (R151); a failed restore (R154). -/
def failOperation (f : Failure) (s : State) : State :=
  let s := dropStep s
  let c := s.changeover
  match c.kindOf with
  | .restore =>
    let s := auditRelease c.stations s
    post .controller (.operationDone .restore .failed (c.restoreEntry.getD 0) (some f)) { s with changeover := .idle }
  | kind =>
    let s := setFormats c.stations .mixed s
    post .controller (.operationDone kind .failed (c.target.getD 0) (some f))
      (modCh (fun c => { c with failure := some f, state := .failed, work := [], position := none, phase := .waiting,
                                done := 0, got := [], stop := none }) s)

/-- A WRITE of the step in progress is in flight (R147). -/
def writeInFlight (s : State) : Bool :=
  match s.changeover.step with
  | none => false
  | some st => match (s.link st.station).inFlight with
    | some { request := .write _ _ _, owner := some .changeover, .. } => true
    | _ => false

/-- A failure from outside while APPLYING (R147): at once, or noted until the WRITE in flight has ended. -/
def failFromOutside (f : Failure) (s : State) : State :=
  if s.changeover.state = .applying then
    if writeInFlight s then modCh (fun c => { c with stop := some (c.stop.getD f) }) s else failOperation f s
  else s

/-! ### Endings -/

/-- A changeover commits (R149). -/
def commitChangeover (s : State) : State :=
  let c := s.changeover
  let f := c.target.getD 0
  let values := match tableGet s.recipes f with
    | some r => r.values
    | none => []
  let s := commitValues values { s with activeFormat := f }
  let s := resolveAll s
  let s := setFormats c.stations (.fmt f) s
  let s := auditRelease c.stations s
  post .controller (.operationDone .changeover .committed f none) { s with changeover := .idle }

/-- The values a revert wrote (R152). -/
def revertValues (s : State) : List (Nat × Int) :=
  (s.changeover.work.map (fun st => match st with
    | .values _ items => items
    | _ => [])).flatten

/-- A revert succeeds (R152). -/
def revertSuccess (s : State) : State :=
  let c := s.changeover
  let f := c.target.getD 0
  let s := commitValues (revertValues s) s
  let s := setFormats c.stations (.fmt f) s
  let s := auditRelease c.stations s
  post .controller (.operationDone .revert .reverted f none) { s with changeover := .idle }

/-- A restore succeeds (R154). -/
def restoreSuccess (s : State) : State :=
  let c := s.changeover
  let k := c.restoreEntry.getD 0
  let s := s.modEntry k (fun e =>
    { e with drift := none, state := .matched, lastCheck := some s.guardTime, lastOutcome := some .matched })
  let s := auditRelease c.stations s
  post .controller (.operationDone .restore .restored k none) { s with changeover := .idle }

/-- Verification has ended with everything equal. -/
def succeed (s : State) : State :=
  match s.changeover.kindOf with
  | .changeover => commitChangeover s
  | .revert => revertSuccess s
  | .restore => restoreSuccess s

/-! ### Steps -/

/-- The step at the work position begins (R145, R148): the controller places itself with the station's arbiter. -/
def beginStep (s : State) : State :=
  let s := modCh (fun c => { c with phase := .waiting, done := 0, got := [] }) s
  match s.changeover.step with
  | none => s
  | some st =>
    if mayPlace (s.stn st.station).state .changeover then place st.station .changeover s
    else failOperation (failureHere (if (s.stn st.station).state = .quarantined then .quarantine else .link) none s) s

/-- The work list is begun in a state (R144, R148); an empty list has no step. -/
def beginWork (state : ChState) (s : State) : State :=
  beginStep (modCh (fun c => { c with state := state, position := some 0 }) s)

/-- A step has ended and given up the link: the next one, or VERIFYING after the last one of APPLYING, or the end
(R144, R148). -/
def nextStep (s : State) : State :=
  let c := s.changeover
  let k := c.position.getD 0 + 1
  if k < c.work.length then beginStep (modCh (fun c => { c with position := some k }) s)
  else if c.state = .applying then beginWork .verifying s
  else succeed s

/-- A step ends without failure: the release returned, the link given up (R145). -/
def finishStep (st : Step) (s : State) : State :=
  nextStep (leave st.station .changeover (returnRelease st.station .changeover s))

/-- The next WRITE of the step, or its end (R145, R146). -/
def writeNext (st : Step) (s : State) : State :=
  match stepWrite s st s.changeover.done with
  | some (b, o, ws) =>
    modCh (fun c => { c with phase := .writing }) (sendRequest st.station (.write b o ws) .changeover s)
  | none => finishStep st s

/-- The release is asked for (R145, third stage). -/
def askStepRelease (st : Step) (s : State) : State :=
  match releaseAnswer st.station s with
  | .notNeeded => writeNext st s
  | .granted true => writeNext st (grantRelease st.station .changeover s)
  | .granted false => modCh (fun c => { c with phase := .settling }) (grantRelease st.station .changeover s)
  | .refused => failOperation (failureHere .inhibit none s) s

/-- The STATE check of a step (R145, second stage). -/
def stateChecked (st : Step) (mode : Option PlcMode) (s : State) : State :=
  if mode = some .run then failOperation (failureHere .interlock none s) s else askStepRelease st s

/-- A WRITE of the step is ACKed (R145, R147). -/
def stepAcked (st : Step) (n : Nat) (s : State) : State :=
  match s.changeover.stop with
  | some f => failOperation f s
  | none => writeNext st (modCh (fun c => { c with done := stepAdvance st c.done n }) s)

/-- A WRITE, STATE or READ of the step ends REJECT or NO_REPLY (R147, R148); a failure from outside came first. -/
def stepTrouble (cause : Cause) (s : State) : State :=
  failOperation (s.changeover.stop.getD (failureHere cause none s)) s

/-- The next READ of a step being verified. -/
def readNext (st : Step) (s : State) : State :=
  match stepRead s st s.changeover.done with
  | some (b, o, n) => modCh (fun c => { c with phase := .reading }) (sendRequest st.station (.read b o n) .changeover s)
  | none => finishStep st s

/-- A READ of a step being verified returns words (R148, R154): a value is compared at once, a block when all of it has
been read, by fingerprint or, for a restore, word by word. -/
def stepRead? (st : Step) (ws : List Word) (s : State) : State :=
  match st with
  | .values _ _ =>
    match stepWrite s st s.changeover.done with
    | some (_, _, expected) =>
      if ws = expected then readNext st (modCh (fun c => { c with done := c.done + 1 }) s)
      else failOperation (failureHere .mismatch (some (.words ws)) s) s
    | none => finishStep st s
  | _ =>
    let all := s.changeover.got ++ ws
    let s := modCh (fun c => { c with done := c.done + ws.length, got := all }) s
    if s.changeover.done < (stepWords s.images st).length then readNext st s
    else match st with
      | .restore _ _ expected =>
        match lowestDiff 0 expected all with
        | some (o, _, _) => failOperation (failureHere .mismatch (some (.offset o)) s) s
        | none => finishStep st s
      | .block _ _ _ im =>
        if imagePrint s.images im = some (fingerprint all) then finishStep st s
        else failOperation (failureHere .mismatch (some (.print (fingerprint all))) s) s
      | .values _ _ => finishStep st s

/-- A station of S has left ONLINE (R147, R148): in APPLYING the step's own station fails the operation at once, another
one at the next WRITE boundary; in VERIFYING either one at once, and another one is named itself, with no block, parameter
or pass (R148 does not say what the failure names: DESIGN CHOICE, log entry 44). -/
def controllerLost (i : Station) (cause : Cause) (s : State) : State :=
  let c := s.changeover
  if i ∈ c.stations then
    let own := match c.step with
      | some st => decide (st.station = i)
      | none => false
    match c.state with
    | .applying =>
      if own then failOperation (c.stop.getD (failureHere cause none s)) s else failFromOutside (failureAt cause i) s
    | .verifying => failOperation (if own then failureHere cause none s else failureAt cause i) s
    | _ => s
  else s

end Sys2Proof.Machine
end

