-- ==== Sys2Proof/Machine/Stations.lean ====
section
/-! DEFINITION. Stations leaving ONLINE (R2, R9, R20, R21, R22), bring-up (R10 to R14), the end of a transaction and what
its result does (R7, R9, R16 to R18, and the chapter of the operation that sent the request). -/

namespace Sys2Proof.Machine

open Sys2Proof

/-! ### Operations ended by their station -/

/-- A tool operation ends because of its station (R85, R90, R95, R96): FAILED if nothing was written, else
UNCONFIRMED; a read FAILED. The cause is the station's even where the release had expired before, with the transaction
that would have ended the relay EXPIRED still in flight (R89 gives EXPIRED and R90 QUARANTINE: DESIGN CHOICE, log entry
42). -/
def endToolBy (i : Station) (cause : Cause) (s : State) : State :=
  match (s.stn i).slot with
  | none => dropUser i .tool s
  | some op =>
    if op.write then endRelay i op (if op.writeSent then .unconfirmed cause else .failed cause) s
    else endToolRead i op (.failed op.block cause) s

/-- A channel's work ends with a failure (R163). -/
def endAccessBy (c : ChanId) (cause : Cause) (s : State) : State :=
  match (s.chan c).work with
  | none => s
  | some w => endAccess c w (some cause) s

/-- An operation that holds a link or waits for it ends with link failure (R9). The controller's end is
`controllerLost`. -/
def endByLink (i : Station) (u : LinkUser) (s : State) : State :=
  match u with
  | .tool => endToolBy i .link s
  | .access c => endAccessBy c .link s
  | .audit => endCheck .unreachable s
  | .changeover => s
  | .presence => s
  | .bringUp => s

/-- An operation is ended by quarantine (R20, R21): ACCESS and PRESENCE stay. -/
def endByQuarantine (i : Station) (u : LinkUser) (s : State) : State :=
  match u with
  | .tool => endToolBy i .quarantine s
  | .audit => endCheck .nothing s
  | .changeover => s
  | .access _ => s
  | .presence => s
  | .bringUp => s

/-- The users of a link, its holder first. -/
def LinkRec.users (l : LinkRec) : List LinkUser :=
  match l.holder with
  | some u => u :: l.waiters
  | none => l.waiters

/-! ### Leaving ONLINE -/

/-- The record of a station whose link is lost or which is released (R9, R22). -/
def StationRec.lost (r : StationRec) : StationRec :=
  { r with reason := none, missed := 0, mode := none, uncertain := true, rate := 0 }

/-- A station goes to DOWN (R9, R22): its record, its release, its place in the sweep queue, bring-up. -/
def goDown (i : Station) (s : State) : State :=
  startBringUp i (dropSweep i (dropRelease i (setStState i .down (s.modStn i (fun r => r.lost)))))

/-- The link is lost (R9). `own` ends the operation whose own transaction was the third missed reply; then the waiters
end in the order they were placed, the changeover controller last (the spec names no order among the operations: DESIGN
CHOICE, log entry 37). -/
def linkLoss (i : Station) (own : State → State) (s : State) : State :=
  let left := (s.stn i).state
  let waiters := (s.link i).waiters
  let s := goDown i s
  let s := own s
  let s := waiters.foldl (fun s u => endByLink i u s) s
  let s := controllerLost i .link s
  post (.station i) (.linkDown left) s

/-- A priority that quarantine removes (R20). -/
def removedByQuarantine : LinkUser → Bool
  | .changeover => true
  | .tool => true
  | .audit => true
  | _ => false

/-- The station enters QUARANTINED with reason INHIBIT from ONLINE (R21, R30): the event, the operations removed (the
holder, the waiters in the order they were placed, the changeover controller last: DESIGN CHOICE, log entry 37), the
link passed on. -/
def quarantineOnline (i : Station) (s : State) : State :=
  let users := (s.link i).users.filter removedByQuarantine
  let s := setStState i .quarantined (s.modStn i (fun r => { r with reason := some .inhibit }))
  let s := dropSweep i (dropRelease i s)
  let s := post (.station i) (.quarantined .inhibit) s
  let s := users.foldl (fun s u => dropUser i u s) s
  let s := users.foldl (fun s u => endByQuarantine i u s) s
  grant i (controllerLost i .quarantine s)

/-- A port enters FAULT (R30): the output reasserted, and the station quarantined or its reason changed (R21). -/
def faultPort (p : Port) (s : State) : State :=
  let s := s.modPort p (fun r => { r.reasserted with monitor := .fault })
  match s.portMap[p] with
  | none => s
  | some i =>
    match (s.stn i).state with
    | .online => quarantineOnline i s
    | .quarantined =>
      if (s.stn i).reason = some .inhibit then s
      else post (.station i) (.quarantined .inhibit) (s.modStn i (fun r => { r with reason := some .inhibit }))
    | _ => s

/-- RELEASE STATION's effect on a QUARANTINED station (R22): the port's FAULT cleared, DOWN, the users ended with link
failure, bring-up. The holder ends first, then the waiters in the order they were placed (the spec names no order:
DESIGN CHOICE, log entry 37). -/
def releaseStation (i : Station) (s : State) : State :=
  let s := match s.portOf i with
    | some p => s.modPort p (fun r => { r with monitor := .idle })
    | none => s
  let users := (s.link i).users
  let s := goDown i (users.foldl (fun s u => dropUser i u s) s)
  users.foldl (fun s u => endByLink i u s) s

/-- The record of a station is cleared to its unmapped state (R2, R4). -/
def clearRecord (i : Station) (s : State) : State := s.modStn i (fun _ => .cleared s.activeFormat)

/-- A station is taken to DISABLED (R2): its transaction abandoned, its users ended with link failure (in the order of
log entry 37), no event of its own. Its record is cleared when every station of the map has come so far (`applyMap`). -/
def disableStation (i : Station) (s : State) : State :=
  let users := (s.link i).users
  let s := dropSweep i (dropRelease i (setStState i .disabled s))
  let s := s.modLink i (fun _ => .quiet)
  controllerLost i .link (users.foldl (fun s u => endByLink i u s) s)

/-- A station named by a new map is set up and enters DOWN (R2, R4). -/
def enableStation (i : Station) (s : State) : State :=
  startBringUp i (setStState i .down (clearRecord i s))

/-! ### Bring-up -/

/-- The candidate rate of R12. -/
def candidateRate (highest : Option Nat) (ceiling : Option Nat) : Nat :=
  min 4 (min (highest.getD 4) (ceiling.getD 4))

/-- A training step at a rate begins (R12). -/
def trainStep (i : Station) (first rate : Nat) (s : State) : State :=
  let phase : TrainPhase := if 0 < rate then .setRate else .echo 0
  sendRequest i (if 0 < rate then .setRate rate else .echo) .bringUp
    (s.modLink i (fun l => { l with training := some { first := first, rate := rate, phase := phase } }))

/-- The guard's side of a link changes its rate (R12, R13). -/
def setRate (i : Station) (rate : Nat) (s : State) : State := s.modStn i (fun r => { r with rate := rate })

/-- A training step fails (R13). -/
def trainFailed (i : Station) (t : Training) (s : State) : State :=
  if 0 < t.rate then
    (setRate i 0 s).modLink i (fun l => { l with training := some { t with phase := .pause Config.trainingPause } })
  else startBringUp i (setStState i .down (setRate i 0 s))

/-- Training succeeds and the station enters ONLINE (R14, R15). -/
def trainDone (i : Station) (t : Training) (s : State) : State :=
  let s := s.modStn i (fun r => { r with rate := t.rate, missed := 0, uncertain := true })
  let s := setStState i .online s
  let s := s.modLink i (fun l => { l with holder := none, training := none, pollTimer := none })
  let s := requestSweep i (placePresence i s)
  post (.station i) (.linkUp t.rate (decide (t.rate < t.first))) s

/-- The identity reported equals the one expected, where one is expected (R11). -/
def identityMatches (e : RosterEntry) (maker model : Word) (serial : BitVec 32) : Bool :=
  decide (e.maker.getD maker = maker) && decide (e.model.getD model = model) && decide (e.serial.getD serial = serial)

/-- The station enters QUARANTINED from DOWN (R11, R15, R21). -/
def quarantineDown (i : Station) (reason : QReason) (s : State) : State :=
  let s := s.modStn i (fun r => { r with reason := some reason, uncertain := true, rate := 0 })
  let s := setStState i .quarantined s
  let s := s.modLink i (fun l => { l with holder := none, identTimer := none, pollTimer := none })
  placePresence i (post (.station i) (.quarantined reason) s)

/-- The port of a station is in FAULT (R11). -/
def State.portFault (s : State) (i : Station) : Bool :=
  match s.portOf i with
  | some p => decide ((s.port p).monitor = .fault)
  | none => false

/-- An IDENT REPLY is taken (R11). -/
def identTaken (i : Station) (maker model firmware : Word) (serial : BitVec 32) (highest words : Byte) (s : State) :
    State :=
  let s := s.modStn i (fun r =>
    { r with maker := some maker, model := some model, firmware := some firmware, serial := some serial,
             highest := some highest.toNat, wordsPerFrame := min 64 words.toNat })
  if s.portFault i then quarantineDown i .inhibit s
  else if identityMatches s.roster[i] maker model serial then
    let r := candidateRate (some highest.toNat) s.roster[i].ceiling
    trainStep i r r (setStState i .training s)
  else quarantineDown i .identity s

/-! ### Results of transactions -/

/-- How a transaction ends (R7). -/
inductive TxResult where
  | reply (r : StationReply)
  | reject (r : RejectReason)
  | noReply
  deriving DecidableEq, Repr

/-- The failure cause of a transaction that brought no reply. -/
def TxResult.cause : TxResult → Cause
  | .reject r => .reject r
  | _ => .noReply

/-- The result of bring-up's transaction (R10 to R14). -/
def bringUpResult (i : Station) (r : TxResult) (s : State) : State :=
  match (s.stn i).state with
  | .down =>
    match r with
    | .reply (.identReply mk md fw sn hi wf) => identTaken i mk md fw sn hi wf s
    | _ => s.modLink i (fun l => { l with identTimer := some Config.identWait })
  | .training =>
    match (s.link i).training with
    | none => s
    | some t =>
      match t.phase, r with
      | .setRate, .reply .ack =>
        sendRequest i .echo .bringUp ((setRate i t.rate s).modLink i (fun l =>
          { l with training := some { t with phase := .echo 0 } }))
      | .echo n, .reply (.echoReply bytes) =>
        if bytes = echoPattern then
          if n + 1 < 3 then
            sendRequest i .echo .bringUp (s.modLink i (fun l =>
              { l with training := some { t with phase := .echo (n + 1) } }))
          else trainDone i t s
        else trainFailed i t s
      | _, _ => trainFailed i t s
  | _ => s

/-- The result of a presence poll (R15): the interval restarts on a reply or REJECT; after NO_REPLY the next poll is
placed at once. -/
def presenceResult (i : Station) (r : TxResult) (s : State) : State :=
  match r with
  | .noReply => placePresence i (leave i .presence s)
  | _ => leave i .presence (startPoll i s)

/-- The result of a transaction of a tool write (R80, R81, R86 to R89). -/
def relayResult (i : Station) (op : ToolOp) (q : StationRequest) (r : TxResult) (s : State) : State :=
  match q, r with
  | .write _ _ ws, .reply _ =>
    let op := { op with acked := op.acked + ws.length }
    let s := modSlot i (fun _ => op) s
    if op.expired then endRelay i op (.unconfirmed .expired) s
    else if op.acked < op.words.length then sendToolWrite i op s
    else if op.readBack then sendToolRead i op .readingBack s
    else endRelay i op .verified s
  | .write _ _ _, .reject c =>
    if op.expired then endRelay i op (.unconfirmed .expired) s
    else if op.acked = 0 then endRelay i op (.failed (.reject c)) s
    else endRelay i op (.unconfirmed (.reject c)) s
  | .read _ _ _, .reply (.data ws) =>
    let op := { op with got := op.got ++ ws }
    let s := modSlot i (fun _ => op) s
    if op.expired then endRelay i op (.unconfirmed .expired) s
    else if op.got.length < op.count then sendToolRead i op .readingBack s
    else match lowestDiff op.offset op.words op.got with
      | some (o, w, rd) => endRelay i op (.verifyFailed o w rd) s
      | none => endRelay i op .verified s
  | _, r => endRelay i op (.unconfirmed (if op.expired then .expired else r.cause)) s

/-- The result of a transaction of a tool read (R94, R95). -/
def toolReadResult (i : Station) (op : ToolOp) (r : TxResult) (s : State) : State :=
  match r with
  | .reply (.data ws) =>
    let op := { op with got := op.got ++ ws }
    let s := modSlot i (fun _ => op) s
    if op.got.length < op.count then sendToolRead i op .reading s
    else endToolRead i op (.data op.block op.offset op.got) s
  | r => endToolRead i op (.failed op.block r.cause) s

/-- The result of a transaction of the tool operation in a slot. -/
def toolResult (i : Station) (q : StationRequest) (r : TxResult) (s : State) : State :=
  match (s.stn i).slot with
  | none => leave i .tool s
  | some op => if op.write then relayResult i op q r s else toolReadResult i op r s

/-- The result of a READ of a channel (R163). -/
def accessResult (i : Station) (c : ChanId) (r : TxResult) (s : State) : State :=
  match (s.chan c).work with
  | none => leave i (.access c) s
  | some w =>
    match r with
    | .reply (.data ws) =>
      let w := { w with got := w.got ++ ws }
      if w.got.length < w.count then sendAccessRead c w (s.setChan c { state := .running, work := some w })
      else endAccess c w none s
    | r => endAccess c w (some r.cause) s

/-- The result of a SUM or READ of the check in progress (R126, R127, R129). A SUM REPLY for an entry that a new resolution
has left without an expectation ends the check, with no confirming read (R119 says only that the check runs to its end:
DESIGN CHOICE, log entry 43). -/
def checkResult (i : Station) (r : TxResult) (s : State) : State :=
  match s.sched.check with
  | none => leave i .audit s
  | some c =>
    match s.audit[c.entry]? with
    | none => endCheck .nothing s
    | some e =>
      match r with
      | .reply (.sumReply a b) =>
        match (e.seenBy c s.images).expected with
        | none => endCheck .nothing s
        | some f => if f = (a.toNat, b.toNat) then endCheck .same s else sendCheckRead e c .confirming s
      | .reply (.data ws) =>
        let got := c.got ++ ws
        if got.length < e.length then
          sendCheckRead e { c with got := got } c.phase (modCheck (fun c => { c with got := got }) s)
        else endCheck (readResult s (e.seenBy c s.images) (decide (c.phase = .confirming)) got) s
      | _ => endCheck .unreachable s

/-- The result of a transaction of the controller's step (R145 to R148). -/
def stepResult (i : Station) (q : StationRequest) (r : TxResult) (s : State) : State :=
  match s.changeover.step with
  | none => leave i .changeover s
  | some st =>
    match q, r with
    | .write _ _ ws, .reply _ => stepAcked st ws.length s
    | .state, .reply (.stateReply m _) => stateChecked st (plcModeOf m) s
    | .read _ _ _, .reply (.data ws) => stepRead? st ws s
    | _, r => stepTrouble r.cause s

/-- The result goes to the operation that sent the request (R7). -/
def ownerResult (i : Station) (u : LinkUser) (q : StationRequest) (r : TxResult) (s : State) : State :=
  match u with
  | .bringUp => bringUpResult i r s
  | .presence => presenceResult i r s
  | .tool => toolResult i q r s
  | .access c => accessResult i c r s
  | .audit => checkResult i r s
  | .changeover => stepResult i q r s

/-- A STATE REPLY's counter is compared with E (R18). -/
def compareCounter (i : Station) (v : Word) (s : State) : State :=
  if s.up i then
    if (s.stn i).uncertain then s.modStn i (fun r => { r with expected := v, uncertain := false })
    else if v = (s.stn i).expected then s
    else
      let delta := v - (s.stn i).expected
      let s := post (.station i) (.unexpectedChange delta) (s.modStn i (fun r => { r with expected := v }))
      if s.online i then requestSweep i s else s
  else s

/-- What every result does to the station record, whoever sent the request (R16 to R18, R20). -/
def linkEffects (i : Station) (q : StationRequest) (r : TxResult) (s : State) : State :=
  match q, r with
  | .state, .reply (.stateReply m v) => compareCounter i v (s.modStn i (fun st => { st with mode := plcModeOf m }))
  | .write _ _ _, .reply _ => s.modStn i (fun st => { st with expected := st.expected + 1#16 })
  | .write _ _ _, .noReply => s.modStn i (fun st => { st with uncertain := true })
  | _, _ => s

/-- The missed count after a transaction (R9): used in ONLINE and QUARANTINED only. -/
def countMissed (i : Station) (r : TxResult) (s : State) : State :=
  if s.up i then
    s.modStn i (fun st => { st with missed := if r = .noReply then st.missed + 1 else 0 })
  else s

/-- A transaction ends (R7): the link is idle, the link controller has its effects, the link may be lost (R9), and the
result goes to the operation that sent the request, or, when that has ended, the link passes (R20). -/
def endTransaction (i : Station) (t : Transaction) (r : TxResult) (s : State) : State :=
  let s := s.modLink i (fun l => { l with inFlight := none })
  let s := linkEffects i t.request r (countMissed i r s)
  if s.up i ∧ 3 ≤ (s.stn i).missed then
    linkLoss i (fun s => match t.owner with
      | some .presence => s
      | some u => ownerResult i u t.request r s
      | none => s) s
  else match t.owner with
    | some u => ownerResult i u t.request r s
    | none => grant i s

/-- The end a taken reply frame gives its transaction (R7). -/
def replyResult : StationReply → TxResult
  | .reject b => match rejectOf b with
    | some r => .reject r
    | none => .noReply
  | r => .reply r

/-- A reply frame arrives on a station link (R7, R180): taken when it carries the outstanding sequence number, its kind
answers the request and it is well formed; discarded otherwise. -/
def stationFrame (i : Station) (seq : Byte) (r : StationReply) (s : State) : State :=
  match (s.link i).inFlight with
  | none => s
  | some t =>
    if t.seq = seq ∧ answers t.request r = true ∧ wellFormedReply t.request r = true then
      endTransaction i t (replyResult r) s
    else s

end Sys2Proof.Machine
end

