-- ==== Sys2Proof/Machine/Reset.lean ====
section
/-! DEFINITION. Start-up and the reset conditions (R24, R36, R98, R165, R175, R176, R39), and the passing of time over
every timer the guard runs. -/

namespace Sys2Proof.Machine

open Sys2Proof

/-! ### Start-up and reset -/

/-- The guard after the start-up of R176: jumpers read, inputs sampled, guard time 0, every block at its start values,
engineering ports by their PRESENT lines, one RESTARTED event. What stands outside the guard (terminal levels, jumper
positions, waiting commands) and the record of the last reply sent are kept. -/
def startUp (cause : ResetCause) (s : State) : State :=
  { State.reset with
    resetLevel := s.resetLevel
    resetHeld := s.resetHeld
    jumperField := s.jumperField
    ports := s.jumperField.map InhibitPort.start
    inputs := { key := .start s.inputs.key.raw, lineRun := .start s.inputs.lineRun.raw,
                cover := .start s.inputs.cover.raw }
    eng := s.eng.map (fun p => EngPort.start p.present)
    sup := .start s.sup.lastSent
    events := [.restarted cause]
    pending := s.pending }

/-- The guard while it does not run, its blocks at their start values and its event queue empty (R176, R39). -/
def stopped (p : Power) (s : State) : State := { startUp .power s with power := p, events := [] }

/-- Jumpers found moved (R24). -/
def moveJumpers (moved : List (Port × Jumper)) (s : State) : State :=
  { s with jumperField := moved.foldl (fun f m => f.set m.1 m.2) s.jumperField }

/-- Supply is applied (R176). -/
def powerOn (s : State) : State := if s.resetLevel then stopped (.inReset .power) s else startUp .power s

/-- The RESET level has been held for 20 ms (R176). A guard already in reset stays in it, with its cause. -/
def resetHeldLong (s : State) : State :=
  let s := { s with resetLevel := true }
  match s.power with
  | .running => stopped (.inReset .terminal) s
  | _ => s

/-- The RESET level falls (R176): a guard in reset starts up with the cause it recorded. -/
def resetFalls (s : State) : State :=
  let s := { s with resetLevel := false, resetHeld := 0 }
  match s.power with
  | .inReset c => startUp c s
  | _ => s

/-- The RESET terminal is driven to its level (R176): the hold timing begins. -/
def resetRises (s : State) : State := if s.resetLevel then s else { s with resetLevel := true, resetHeld := 0 }

/-- An effect of the running guard; an unpowered guard and one in reset neither send nor answer anything (R176). -/
def whenRunning (f : State → State) (s : State) : State := if s.power = .running then f s else s

/-! ### Time -/

/-- A running timer after `n` ms; it stays running until its expiry is taken. -/
def runDown (n : Nat) (t : Option Nat) : Option Nat := t.map (fun ms => ms - n)

/-- A training step's pause after `n` ms. -/
def Training.pass (n : Nat) (t : Training) : Training :=
  match t.phase with
  | .pause ms => { t with phase := .pause (ms - n) }
  | _ => t

/-- A link record after `n` ms (R7, R10, R13, R15). -/
def LinkRec.pass (n : Nat) (l : LinkRec) : LinkRec :=
  { l with
    inFlight := l.inFlight.map (fun t => { t with timeout := t.timeout - n })
    identTimer := runDown n l.identTimer
    training := l.training.map (Training.pass n)
    pollTimer := runDown n l.pollTimer }

/-- A monitor after `n` ms (R30). -/
def Monitor.pass (n : Nat) : Monitor → Monitor
  | .disagree t => .disagree (t + n)
  | m => m

/-- An inhibit port after `n` ms (R26, R27, R30). -/
def InhibitPort.pass (n : Nat) (p : InhibitPort) : InhibitPort :=
  { p with limitTimer := runDown n p.limitTimer, settleTimer := runDown n p.settleTimer, monitor := p.monitor.pass n }

/-- An input after `n` ms (R33). -/
def InputRec.pass (n : Nat) (r : InputRec) : InputRec := { r with hold := r.hold + n }

/-- The replies a transmitter still holds after `n` ms, sent whole, one after another (section 6.4). -/
def drainTx (n : Nat) : List ToolTx → List ToolTx
  | [] => []
  | t :: ts => if t.remaining ≤ n then drainTx (n - t.remaining) ts else { t with remaining := t.remaining - n } :: ts

/-- An engineering port after `n` ms (R99, R100, R108, R109). -/
def EngPort.pass (n : Nat) (p : EngPort) : EngPort :=
  { p with
    settleTimer := runDown n p.settleTimer
    detachTimer := runDown n p.detachTimer
    strikeWindow := runDown n p.strikeWindow
    lockout := runDown n p.lockout
    tx := drainTx n p.tx }

/-- `n` ms pass over every timer of a running guard (log entries 1 and 2). -/
def passMs (n : Nat) : State → State := whenRunning (fun s =>
  { s with
    resetHeld := if s.resetLevel then s.resetHeld + n else s.resetHeld
    subSecond := s.subSecond + n
    links := s.links.map (LinkRec.pass n)
    ports := s.ports.map (InhibitPort.pass n)
    inputs := { key := s.inputs.key.pass n, lineRun := s.inputs.lineRun.pass n, cover := s.inputs.cover.pass n }
    sched := { s.sched with paceTimer := runDown n s.sched.paceTimer }
    eng := s.eng.map (EngPort.pass n)
    holdoff := runDown n s.holdoff })

/-- One second passes and guard time rises by one, up to its last value (R168). The ms of the second that have not
passed yet pass over every timer (log entry 2). -/
def tick : State → State := whenRunning (fun s =>
  let s := passMs (1000 - s.subSecond) s
  { s with guardTime := min Config.guardTimeMax (s.guardTime + 1), subSecond := s.subSecond - 1000 })

/-- The budget window of a parameter closes when its closing time has come (R65). -/
def closeWindow (index : Nat) : State → State := whenRunning (fun s =>
  { s with params := tableMod s.params index (fun p => { p with window := p.openWindow s.guardTime }) })

/-- The attention holdoff expires (R167). -/
def holdoffExpiry : State → State := whenRunning (fun s => { s with holdoff := none })

end Sys2Proof.Machine
end

