-- ==== Sys2Proof/Machine/Terminals.lean ====
section
/-! DEFINITION. The discrete terminals: the conditioned inputs (R33 to R36) and the timers and senses of the inhibit
ports (R27, R29, R30). -/

namespace Sys2Proof.Machine

open Sys2Proof

/-! ### Inputs -/

/-- An edge to a level is reported in a mode (R35). -/
def EdgeMode.reports (m : EdgeMode) (level : Bool) : Bool :=
  match m with
  | .none => false
  | .rise => level
  | .fall => !level
  | .both => true

/-- The accepted level becomes the raw level (R33, R35); the changeover controller acts on KEY leaving MAINT and on
LINE_RUN becoming active (R147). INPUT_CHANGE is posted first and the controller acts after it, so OPERATION_DONE stands
behind it in the queue (no rule orders the two: DESIGN CHOICE, log entry 14). -/
def acceptLevel (x : InputId) (s : State) : State :=
  let r := s.inputs.get x
  let s := s.setInput x { r with accepted := r.raw }
  let s := if r.mode.reports r.raw then post (.input x) (.inputChange r.raw) s else s
  match x, r.raw with
  | .key, false => failFromOutside (failureHere .interlock none s) s
  | .lineRun, true => failFromOutside (failureHere .interlock none s) s
  | _, _ => s

/-- The raw level of an input changes (R33): its hold time restarts, and with a check time of 0 it is accepted at once.
While the guard does not run the terminal's level alone is followed. -/
def rawChange (x : InputId) (level : Bool) (s : State) : State :=
  let r := s.inputs.get x
  if r.raw = level then s
  else
    let s1 := s.setInput x { r with raw := level, hold := 0 }
    if s.power = .running ∧ r.checkTime = 0 ∧ level ≠ r.accepted then acceptLevel x s1 else s1

/-- A raw level that differs from the accepted one has held for the check time (R33). -/
def debounceExpiry (x : InputId) : State → State := whenRunning (fun s =>
  if (s.inputs.get x).raw = (s.inputs.get x).accepted then s else acceptLevel x s)

/-! ### Inhibit ports -/

/-- The port is ready (R27): the holder sends its first WRITE (R79, R145). -/
def portReady (h : ReleaseHolder) (s : State) : State :=
  match h with
  | .tool i => match (s.stn i).slot with
    | some op => if op.phase = .settling then sendToolWrite i op s else s
    | none => s
  | .changeover => match s.changeover.step with
    | some st => if s.changeover.phase = .settling then writeNext st s else s
    | none => s

/-- The settle timer expires (R27). -/
def settleExpiry (p : Port) : State → State := whenRunning (fun s =>
  if (s.port p).settleTimer.isSome then
    let s := s.modPort p (fun r => { r with settleTimer := none })
    match (s.port p).holder with
    | some h => portReady h s
    | none => s
  else s)

/-- A transaction of the tool operation is in flight on a link (R89). -/
def State.toolInFlight (s : State) (i : Station) : Bool :=
  match (s.link i).inFlight with
  | some t => decide (t.owner = some .tool)
  | none => false

/-- The former holder is told that its release has expired (R29, R89, R147). -/
def holderExpired (h : ReleaseHolder) (s : State) : State :=
  match h with
  | .tool i => match (s.stn i).slot with
    | some op =>
      if s.toolInFlight i then modSlot i (fun op => { op with expired := true }) s
      else endRelay i op (.unconfirmed .expired) s
    | none => s
  | .changeover => failFromOutside (failureHere .expired none s) s

/-- The release limit expires (R29). -/
def limitExpiry (p : Port) : State → State := whenRunning (fun s =>
  if (s.port p).limitTimer.isSome then
    let h := (s.port p).holder
    let s := syncMonitor p (s.modPort p (fun r => r.reasserted))
    match h with
    | some h => holderExpired h s
    | none => s
  else s)

/-- The sensed level at a terminal changes (R30). -/
def senseChange (p : Port) (level : Bool) : State → State := whenRunning (fun s =>
  syncMonitor p (s.modPort p (fun r => { r with sensed := level })))

/-- A disagreement has lasted 10 ms (R30). -/
def disagreeExpiry (p : Port) : State → State := whenRunning (fun s =>
  match (s.port p).monitor with
  | .disagree _ => faultPort p s
  | _ => s)

end Sys2Proof.Machine
end

