-- ==== Sys2Proof/Machine/Tools.lean ====
section
/-! DEFINITION. The engineering ports: PRESENT and the timers (R99, R100, R108, R109), the frames of a tool (R101 to
R105), admission and judgement (R47 to R50), strikes and lockout (R106, R107). -/

namespace Sys2Proof.Machine

open Sys2Proof

/-! ### Attach, detach and the port's timers -/

/-- PRESENT is asserted (R99, R100). -/
def presentAsserted (e : EngId) (s : State) : State :=
  let p := s.engp e
  if p.present then s
  else
    let s1 := s.modEng e (fun p => { p with present := true })
    if s.power ≠ .running then s1
    else if p.state = .detached then
      post (.engineering e) (.attached (secondsUp (p.lockout.getD 0)))
        (s1.modEng e (fun p =>
          { p with state := .settling, attachment := p.attachment + 1, settleTimer := some Config.portSettle }))
    else s1.modEng e (fun p => { p with detachTimer := none })

/-- PRESENT drops (R100). -/
def presentDropped (e : EngId) (s : State) : State :=
  let p := s.engp e
  if p.present then
    let s1 := s.modEng e (fun p => { p with present := false })
    if s.power = .running ∧ p.state ≠ .detached then
      s1.modEng e (fun p => { p with detachTimer := some Config.detachTime })
    else s1
  else s

/-- The detach timer expires (R100). -/
def detachExpiry (e : EngId) : State → State := whenRunning (fun s =>
  let p := s.engp e
  if p.detachTimer.isSome then
    post (.engineering e) (.detached p.state p.awaited.isSome)
      (s.modEng e (fun p =>
        { p with state := .detached, settleTimer := none, detachTimer := none, awaited := none, tx := [], rx := [] }))
  else s)

/-- The settle timer of a port expires (R99). -/
def portSettleExpiry (e : EngId) : State → State := whenRunning (fun s =>
  let p := s.engp e
  if p.settleTimer.isSome ∧ p.state = .settling then
    s.modEng e (fun p => { p with settleTimer := none, state := if p.lockout.isSome then .lockedOut else .ready })
  else s)

/-- The strike window expires (R108). -/
def strikeWindowExpiry (e : EngId) : State → State := whenRunning (fun s =>
  if (s.engp e).strikeWindow.isSome then s.modEng e (fun p => { p with strikes := 0, strikeWindow := none }) else s)

/-- The lockout expires (R109). -/
def lockoutExpiry (e : EngId) : State → State := whenRunning (fun s =>
  if (s.engp e).lockout.isSome then
    s.modEng e (fun p => { p with lockout := none, state := if p.state = .lockedOut then .ready else p.state })
  else s)

/-! ### Strikes -/

/-- Steps 2 and 3 of R106: the window opened if it is closed, the count raised. -/
def EngPort.struck (p : EngPort) (window : Nat) : EngPort :=
  { p with strikes := p.strikes + 1, strikeWindow := some (p.strikeWindow.getD (1000 * window)) }

/-- The port in lockout (R107). -/
def EngPort.locked (p : EngPort) (seconds : Nat) : EngPort :=
  { p with state := .lockedOut, lockout := some (1000 * seconds), strikes := 0, strikeWindow := none }

/-- A strike (R106), and the lockout it may start (R107). -/
def strike (e : EngId) (why : Policy) (i : Station) (block : Nat) (s : State) : State :=
  let s := post (.engineering e) (.refusal why i block) s
  let s := s.modEng e (fun p => p.struck s.timing.strikeWindow)
  if s.timing.strikeLimit ≤ (s.engp e).strikes then
    post (.engineering e) (.lockout s.timing.lockout why) (s.modEng e (fun p => p.locked s.timing.lockout))
  else s

/-- A policy refusal: the answer, then the strike (R106). -/
def refusePolicy (e : EngId) (tag : Byte) (why : Policy) (offset : Nat) (i : Station) (block : Nat) (s : State) : State :=
  strike e why i block (sendTool e tag (.policy why offset) s)

/-! ### LIST, READ and WRITE -/

/-- The items of a LIST (R103). -/
def listItems (s : State) : List ListItem :=
  (allStations.filter s.mapped).map (fun i =>
    { number := stationNumber i, name := s.roster[i].name, state := (s.stn i).state, format := (s.stn i).format,
      unprotected := s.unprotected i })

/-- The reply to LIST (R103). -/
def listReply (s : State) : ToolReply := .list Config.modelCode Config.designRevision s.stage (listItems s)

/-- The station of a well-formed READ (R102). -/
def readStationOf (r : ToolReadReq) : Option Station :=
  if r.block ≤ 1023 ∧ 1 ≤ r.count ∧ r.count ≤ 64 ∧ r.offset + r.count ≤ 256 then stationOf r.station else none

/-- The station of a well-formed WRITE (R102). -/
def writeStationOf (r : ToolWriteReq) : Option Station :=
  if r.block ≤ 1023 ∧ 1 ≤ r.count ∧ r.count ≤ 32 ∧ r.offset + r.count ≤ 256 ∧ r.words.length = r.count then
    stationOf r.station
  else none

/-- A new tool operation of a port (R77). -/
def newOp (p : EngPort) (e : EngId) (tag : Byte) (write : Bool) (block offset count : Nat) (words : List Word)
    (readBack adjusted : Bool) (changes : List (Nat × Int)) : ToolOp :=
  { write := write, port := e, attachment := p.attachment, tag := tag, block := block, offset := offset, count := count,
    words := words, readBack := readBack, adjusted := adjusted, changes := changes, phase := .waitingForLink, acked := 0,
    writeSent := false, got := [], expired := false }

/-- An operation fills its station's slot (R49, R50, R78, R102): the port waits, and the operation is placed. -/
def fillSlot (i : Station) (op : ToolOp) (s : State) : State :=
  place i .tool
    ((s.modStn i (fun r => { r with slot := some op })).modEng op.port (fun p =>
      { p with state := .waiting, awaited := some i }))

/-- Admission of a tool read (R50): the refusal, if any. -/
def readRefusal (s : State) (i : Station) : Option ToolReply :=
  if ¬ s.up i then some .notReady
  else if (s.stn i).state = .quarantined then some .quarantined
  else if (s.stn i).slot.isSome then some .busy
  else none

/-- A well-formed READ (R50). -/
def takeToolRead (e : EngId) (tag : Byte) (i : Station) (r : ToolReadReq) (s : State) : State :=
  match readRefusal s i with
  | some a => sendTool e tag a s
  | none => fillSlot i (newOp (s.engp e) e tag false r.block r.offset r.count [] false false []) s

/-- Steps 1 to 7 of the admission of a tool write (R47): the refusal, if any. -/
def writeRefusal (s : State) (i : Station) : Option ToolReply :=
  if s.stage ≠ .guarding then some .notReady
  else if ¬ s.up i then some .notReady
  else if (s.stn i).state = .quarantined then some .quarantined
  else if (s.stn i).format = .mixed then some .mixed
  else if s.held i then some .changeover
  else if s.coverPosture then some .cover
  else if (s.stn i).slot.isSome then some .busy
  else none

/-- A well-formed WRITE (R47, R49). -/
def takeToolWrite (e : EngId) (tag : Byte) (i : Station) (r : ToolWriteReq) (s : State) : State :=
  match writeRefusal s i with
  | some a => sendTool e tag a s
  | none =>
    match s.classOf i r.block with
    | .fixed => refusePolicy e tag .fixed 0 i r.block s
    | .format => refusePolicy e tag .format 0 i r.block s
    | .free => fillSlot i (newOp (s.engp e) e tag true r.block r.offset r.count r.words false false []) s
    | .tunable =>
      match judge s.params i r.block r.offset r.words s.guardTime with
      | .refuse why o => refusePolicy e tag why o i r.block s
      | .noChange ws => sendTool e tag (.noChange r.block r.offset ws) s
      | .forward ws adjusted changes =>
        fillSlot i (newOp (s.engp e) e tag true r.block r.offset r.count ws true adjusted changes) s

/-- A frame taken in READY (R102, R103). -/
def readyFrame (e : EngId) (tag : Byte) (q : ToolRequest) (s : State) : State :=
  match q with
  | .bad => sendTool e tag .badRequest s
  | .list => sendTool e tag (listReply s) s
  | .read r => match readStationOf r with
    | some i => takeToolRead e tag i r s
    | none => sendTool e tag .badRequest s
  | .write r => match writeStationOf r with
    | some i => takeToolWrite e tag i r s
    | none => sendTool e tag .badRequest s

/-- The seconds a LOCKED_OUT reply carries (R105). -/
def lockoutSeconds (p : EngPort) : Nat := max 1 (secondsUp (p.lockout.getD 0))

/-- A frame with a good check arrives at a port (R101, R104, R105). -/
def toolFrame (e : EngId) (tag : Byte) (q : ToolRequest) : State → State := whenRunning (fun s =>
  match (s.engp e).state with
  | .detached => s
  | .settling => s
  | .waiting => sendTool e tag .busy s
  | .lockedOut => sendTool e tag (.lockedOut (lockoutSeconds (s.engp e))) s
  | .ready => readyFrame e tag q s)

end Sys2Proof.Machine
end

