-- ==== Sys2Proof/Machine/Requests.lean ====
section
/-! DEFINITION. What every supervisor request shares: the answer it makes (R157), and a table of checks answered with
the first refusal that applies. -/

namespace Sys2Proof.Machine

open Sys2Proof

/-- What a taken request is answered with, before its reply head is made (R157). -/
structure Response where
  status : Status
  reason : Option Reason
  subject : Subject
  body : ReplyBody
  deriving DecidableEq, Repr

/-- The subject that names nothing (R182). -/
def Subject.nothing : Subject := { kind := .none, number := 0, position := 0, check := 0 }

/-- A subject with an index or number alone (R182). -/
def Subject.of (kind : SubjectKind) (n : Nat) : Subject := { kind := kind, number := n, position := 0, check := 0 }

/-- OK, with the fields the rule names. -/
def Response.ok (body : ReplyBody) : Response :=
  { status := .ok, reason := none, subject := .nothing, body := body }

/-- ADJUSTED, with the values in force. -/
def Response.adjusted (body : ReplyBody) : Response :=
  { status := .adjusted, reason := none, subject := .nothing, body := body }

/-- REFUSED, naming a subject. -/
def Response.refusedAt (r : Reason) (subject : Subject) : Response :=
  { status := .refused, reason := some r, subject := subject, body := .none }

/-- REFUSED, naming nothing. -/
def Response.refused (r : Reason) : Response := .refusedAt r .nothing

/-- What a request answers and the state it leaves. -/
abbrev Taken := Response × State

/-- A row of a rule's table of checks: the condition under which it fails, and the refusal it gives. -/
abbrev CheckRow := Bool × Reason

/-- The first refusal that applies. -/
def firstRefusal : List CheckRow → Option Reason
  | [] => none
  | (fails, r) :: rows => if fails then some r else firstRefusal rows

/-- A request answered by its table of checks: REFUSED with nothing changed, or what it does. -/
def checked (rows : List CheckRow) (s : State) (accepted : Taken) : Taken :=
  match firstRefusal rows with
  | some r => (.refused r, s)
  | none => accepted

/-- The two checks every configuration request begins with. -/
def configRows (s : State) : List CheckRow := [(s.locked, .locked), (decide (s.stage ≠ .configure), .stage)]

/-- The same two checks before a field outside its range. -/
def refusedRange (s : State) : Taken := checked (configRows s ++ [(true, .range)]) s (.refused .range, s)

end Sys2Proof.Machine
end

