-- ==== Sys2Proof/Machine/Setup.lean ====
section
/-! DEFINITION. The configuration requests: port map, roster, inputs and timing (R1 to R3, R34, R158), windows (R40),
parameters (R53), images (R112, R113), audit entries (R117), recipes (R134 to R136), SET ACTIVE FORMAT (R76, R137) and
CLEAR TABLES (R174). -/

namespace Sys2Proof.Machine

open Sys2Proof

/-! ### SET PORT MAP -/

/-- A port map's values are in range for its mode (R1). -/
def portMapInRange (r : PortMapReq) : Bool :=
  match secondOf r.mode with
  | none => false
  | some false => r.values.toList.all (fun v => decide (v ≤ 1))
  | some true => r.values.toList.all (fun v => decide (v ≤ 8))

/-- A non-zero logical number appears on two ports of a MAPPED map (R1). -/
def portMapConflict (r : PortMapReq) : Bool :=
  decide (secondOf r.mode = some true)
    && allPorts.any (fun p => allPorts.any (fun q =>
        decide (p ≠ q) && decide (r.values[p] = r.values[q]) && decide (r.values[p] ≠ 0)))

/-- The map a request gives (R1): in SEQUENTIAL the enabled ports receive 1, 2, 3 and onward in physical order. -/
def portMapOf (r : PortMapReq) : Vector (Option Station) 8 :=
  Vector.ofFn (fun p : Port =>
    if secondOf r.mode = some true then stationOf r.values[p]
    else if r.values[p] = 1 then
      stationOf ((allPorts.filter (fun q => decide (q ≤ p) && decide (r.values[q] = 1))).length)
    else none)

/-- Every monitor to IDLE, which clears every FAULT (R31). -/
def clearMonitors (s : State) : State := { s with ports := s.ports.map (fun p => { p with monitor := .idle }) }

/-- A port map is applied (R2): the stations mapped before to DISABLED, in ascending order of their numbers (the spec
names no order: DESIGN CHOICE, log entry 37), and their records cleared once all their operations have ended, so that no
ending touches a cleared record; then those of the new map set up. -/
def applyMap (m : Vector (Option Station) 8) (s : State) : State :=
  let old := allStations.filter s.mapped
  let s := old.foldl (fun s i => disableStation i s) s
  let s := old.foldl (fun s i => clearRecord i s) s
  let s := { clearMonitors s with portMap := m }
  (allStations.filter s.mapped).foldl (fun s i => enableStation i s) s

/-- SET PORT MAP (R1). -/
def takeSetPortMap (r : PortMapReq) (s : State) : Taken :=
  checked (configRows s ++ [(!portMapInRange r, .range), (portMapConflict r, .conflict)]) s
    (.ok .none, applyMap (portMapOf r) s)

/-! ### SET STATION, SET INPUT, SET TIMING -/

/-- The roster entry a request gives; none when a field is outside its range (R3). -/
def rosterOf (r : StationReq) : Option (Station × RosterEntry) := do
  let i ← stationOf r.station
  let name ← nameOf 12 r.name
  let required ← secondOf r.required
  let cls ← clsOf r.defaultClass
  if r.ceiling.getD 0 ≤ 4 ∧ 5 ≤ r.replyTimeout ∧ r.replyTimeout ≤ 250 ∧ r.releaseSettle ≤ 200 then
    some (i, { name := name, maker := r.maker, model := r.model, serial := r.serial, ceiling := r.ceiling,
               replyTimeout := r.replyTimeout, releaseSettle := r.releaseSettle, required := required,
               defaultClass := cls })
  else none

/-- SET STATION (R3). -/
def takeSetStation (r : StationReq) (s : State) : Taken :=
  match rosterOf r with
  | none => refusedRange s
  | some (i, e) => checked (configRows s) s (.ok .none, { s with roster := s.roster.set i e })

/-- The settings of an input, and the acceptance they may complete at once (R34). -/
def setInputTo (x : InputId) (checkTime : Nat) (m : EdgeMode) (s : State) : State :=
  let r := s.inputs.get x
  let s := s.setInput x { r with checkTime := checkTime, mode := m }
  if r.raw ≠ r.accepted ∧ checkTime ≤ r.hold then acceptLevel x s else s

/-- SET INPUT (R34). -/
def takeSetInput (r : InputReq) (s : State) : Taken :=
  match inputOf r.input, edgeOf r.mode with
  | some x, some m =>
    let ms := nearestCheckTime r.checkTime
    checked (configRows s) s
      (if ms = r.checkTime then .ok .none else .adjusted (.checkTime ms), setInputTo x ms m s)
  | _, _ => refusedRange s

/-- SET TIMING (R158). -/
def takeSetTiming (t : Timing) (s : State) : Taken :=
  let u := clampTiming t
  checked (configRows s) s (if u = t then .ok .none else .adjusted (.timing u), { s with timing := u })

/-! ### LOAD WINDOW -/

/-- The window a request gives; none when a field is outside its range (R40). -/
def windowOf (r : WindowReq) : Option Window := do
  let i ← stationOf r.station
  let c ← clsOf r.cls
  if r.last ≤ 1023 ∧ r.first ≤ r.last then some { station := i, first := r.first, last := r.last, cls := c } else none

/-- Two windows of one station cover a common block (R40). -/
def Window.overlaps (v w : Window) : Bool :=
  decide (v.station = w.station) && decide (v.first ≤ w.last) && decide (w.first ≤ v.last)

/-- LOAD WINDOW (R40). -/
def takeLoadWindow (r : WindowReq) (s : State) : Taken :=
  match windowOf r with
  | none => refusedRange s
  | some w =>
    checked (configRows s ++ [(decide (Config.windowCapacity ≤ s.windows.length), .full),
        (s.windows.any (fun v => v.overlaps w), .conflict)]) s
      (.ok .none, { s with windows := s.windows ++ [w] })

/-! ### LOAD PARAMETER -/

/-- The budget of a request is in range (R53). -/
def budgetInRange : Option (Nat × Nat) → Bool
  | none => true
  | some (k, minutes) => decide (1 ≤ k) && decide (k ≤ 255) && decide (1 ≤ minutes) && decide (minutes ≤ 1440)

/-- The parameter fits its kind, its limits, its band and its grain (R53). -/
def Param.sound (p : Param) : Bool :=
  decide (p.block ≤ 1023) && decide (p.offset + p.width ≤ 256) && decide (1 ≤ p.grain) && decide (p.grain ≤ 65535)
    && budgetInRange p.budget
    && decide (p.low ≤ widthMax p.wide) && decide (p.high ≤ widthMax p.wide)
    && decide (p.step.getD 0 ≤ widthMax p.wide)
    && decide (kindMin p.wide p.signed ≤ p.hmin) && decide (p.hmin ≤ p.hmax)
    && decide (p.hmax ≤ kindMax p.wide p.signed)
    && between p.hmin p.hmax p.defaultBase && between p.lo p.hi p.current
    && decide ((p.current - p.base) % (p.grain : Int) = 0)

/-- The parameter a request gives, with its index; none when it is refused RANGE (R53). -/
def paramOf (r : ParameterReq) : Option (Nat × Param) := do
  let i ← stationOf r.station
  let wide ← secondOf r.width
  let signed ← secondOf r.kind
  let clamp ← secondOf r.mode
  let base := valueOf signed r.defaultBase
  let p : Param :=
    { station := i, block := r.block, offset := r.offset, wide := wide, signed := signed, hmin := valueOf signed r.hmin,
      hmax := valueOf signed r.hmax, defaultBase := base, base := base, current := valueOf signed r.current,
      low := r.low, high := r.high, step := r.step, grain := r.grain.getD 1, clamp := clamp, budget := r.budget,
      window := none }
  if r.index < Config.parameterCapacity ∧ p.sound = true then some (r.index, p) else none

/-- Two parameters share a word (R53). -/
def Param.sharesWord (p q : Param) : Bool :=
  decide (p.station = q.station) && decide (p.block = q.block) && decide (p.offset < q.offset + q.width)
    && decide (q.offset < p.offset + p.width)

/-- LOAD PARAMETER (R53). -/
def takeLoadParameter (r : ParameterReq) (s : State) : Taken :=
  match paramOf r with
  | none => refusedRange s
  | some (k, p) =>
    checked (configRows s ++ [((tableGet s.params k).isSome || s.params.any (fun e => e.2.sharesWord p), .conflict)]) s
      (.ok .none, { s with params := tableSet s.params k p })

/-! ### LOAD IMAGE, LOAD IMAGE WORDS -/

/-- LOAD IMAGE (R112). -/
def takeLoadImage (r : ImageReq) (s : State) : Taken :=
  checked (configRows s ++
      [(decide (Config.imageCapacity ≤ r.id ∨ r.length = 0 ∨ 256 < r.length), .range),
       ((findImage s.images r.id).isSome, .conflict),
       (decide (Config.storeWords < reservedWords s.images + r.length), .full)]) s
    (.ok .none, { s with images := s.images ++
      [{ id := r.id, length := r.length, position := reservedWords s.images, words := [], capture := none,
         print := none }] })

/-- The fields of LOAD IMAGE WORDS are in range (R113). -/
def imageWordsInRange (r : ImageWordsReq) : Bool :=
  decide (r.id < Config.imageCapacity) && decide (r.offset ≤ 255) && decide (1 ≤ r.count) && decide (r.count ≤ 64)
    && decide (r.words.length = r.count)

/-- LOAD IMAGE WORDS (R113, R115). -/
def takeLoadImageWords (r : ImageWordsReq) (s : State) : Taken :=
  match findImage s.images r.id with
  | none => checked (configRows s ++ [(!imageWordsInRange r, .range), (true, .unknown)]) s (.refused .unknown, s)
  | some im =>
    checked (configRows s ++
        [(!imageWordsInRange r, .range), (im.capture.isSome, .busy), (decide (r.offset ≠ im.words.length), .order),
         (decide (im.length < r.offset + r.count), .range)]) s
      (.ok .none, { s with images := modImage s.images r.id (fun im => im.place r.words) })

/-! ### ADD AUDIT ENTRY -/

/-- The entry a request gives; none when a field is outside its range (R117, R118). -/
def auditEntryOf (r : AuditReq) : Option AuditEntry := do
  let i ← stationOf r.station
  let readMode ← secondOf r.mode
  if r.block ≤ 1023 ∧ 1 ≤ r.length ∧ r.length ≤ 256 ∧ r.image.getD 0 < Config.imageCapacity then
    some { station := i, block := r.block, length := r.length, readMode := readMode, image := r.image, cls := none,
           resolved := none, expected := none, state := .unchecked, lastCheck := none, lastOutcome := none,
           drift := none }
  else none

/-- ADD AUDIT ENTRY (R117). -/
def takeAddAuditEntry (r : AuditReq) (s : State) : Taken :=
  match auditEntryOf r with
  | none => refusedRange s
  | some e =>
    checked (configRows s ++
        [(decide (Config.auditCapacity ≤ s.audit.length), .full),
         (s.audit.any (fun x => decide (x.station = e.station) && decide (x.block = e.block)), .conflict)]) s
      (.ok .none, { s with audit := s.audit ++ [e] })

/-! ### Recipes -/

/-- A format number 1 to 12 (R134). -/
def formatInRange (f : Nat) : Bool := decide (1 ≤ f) && decide (f ≤ 12)

/-- The name a LOAD RECIPE gives, none when it is outside its range: absent, or 1 to 16 characters (R134). -/
def recipeNameOf : Option (List Byte) → Option (Option (List Byte))
  | none => some none
  | some bytes => match nameOf 16 bytes with
    | some (c :: cs) => some (some (c :: cs))
    | _ => none

/-- LOAD RECIPE (R134). -/
def takeLoadRecipe (r : RecipeReq) (s : State) : Taken :=
  match recipeNameOf r.name with
  | none => refusedRange s
  | some name =>
    checked (configRows s ++ [(!formatInRange r.format, .range)]) s
      (.ok .none, { s with recipes := tableSet s.recipes r.format { name := name, blocks := [], values := [] } })

/-- The item a LOAD RECIPE BLOCK gives; none when a field is outside its range (R135). -/
def recipeBlockOf (r : RecipeBlockReq) : Option RecipeBlock := do
  let i ← stationOf r.station
  if formatInRange r.format = true ∧ r.block ≤ 1023 ∧ 1 ≤ r.pass ∧ r.pass ≤ 3 ∧ r.image < Config.imageCapacity then
    some { station := i, block := r.block, pass := r.pass, image := r.image }
  else none

/-- LOAD RECIPE BLOCK (R135). -/
def takeLoadRecipeBlock (r : RecipeBlockReq) (s : State) : Taken :=
  match recipeBlockOf r with
  | none => refusedRange s
  | some it =>
    match tableGet s.recipes r.format with
    | none => checked (configRows s ++ [(true, .unknown)]) s (.refused .unknown, s)
    | some rec =>
      checked (configRows s ++
          [(decide (Config.recipeBlocks ≤ rec.blocks.length), .full),
           ((rec.blockAt it.station it.block).isSome, .conflict)]) s
        (.ok .none, { s with recipes := tableSet s.recipes r.format { rec with blocks := rec.blocks ++ [it] } })

/-- LOAD RECIPE VALUE (R136). -/
def takeLoadRecipeValue (r : RecipeValueReq) (s : State) : Taken :=
  let range : List CheckRow := configRows s ++
    [(!formatInRange r.format || decide (Config.parameterCapacity ≤ r.parameter), .range)]
  match tableGet s.recipes r.format, tableGet s.params r.parameter with
  | some rec, some p =>
    let v := valueOf p.signed r.value
    checked (range ++
        [(decide (Config.recipeValues ≤ rec.values.length), .full),
         ((tableGet rec.values r.parameter).isSome, .conflict),
         (!between p.hmin p.hmax v, .range)]) s
      (.ok .none, { s with recipes := tableSet s.recipes r.format { rec with values := tableSet rec.values r.parameter v } })
  | _, _ => checked (range ++ [(true, .unknown)]) s (.refused .unknown, s)

/-! ### SET ACTIVE FORMAT, CLEAR TABLES -/

/-- The first value of a list whose parameter's current value does not fit it (R76). -/
def firstUnfit (ps : List (Nat × Param)) : List (Nat × Int) → Option Nat
  | [] => none
  | (k, v) :: rest => match tableGet ps k with
    | some p => if p.fits v then firstUnfit ps rest else some k
    | none => firstUnfit ps rest

/-- The values of a format's recipe. -/
def recipeValuesOf (rs : List (Nat × Recipe)) (f : Nat) : List (Nat × Int) :=
  match tableGet rs f with
  | some r => r.values
  | none => []

/-- The effect of SET ACTIVE FORMAT (R76, R137). -/
def declareFormat (f : Nat) (s : State) : State :=
  let values := if f = 0 then [] else recipeValuesOf s.recipes f
  setFormats (allStations.filter s.mapped) (.fmt f)
    { s with
      activeFormat := f
      params := values.foldl (fun ps c => tableMod ps c.1 (fun p => p.rebase c.2)) s.params }

/-- SET ACTIVE FORMAT (R137, R76). -/
def takeSetActiveFormat (f : Nat) (s : State) : Taken :=
  checked (configRows s ++
      [(decide (12 < f), .range), (!s.keyMaint, .interlock),
       (decide (f ≠ 0) && (tableGet s.recipes f).isNone, .unknown)]) s
    (match if f = 0 then none else firstUnfit s.params (recipeValuesOf s.recipes f) with
     | some k => (.refusedAt .range (.of .parameter k), s)
     | none => (.ok .none, declareFormat f s))

/-- CLEAR TABLES (R174). -/
def takeClearTables (s : State) : Taken :=
  checked (configRows s ++ [(s.images.any (fun im => im.capture.isSome), .busy)]) s
    (.ok .none, { s with windows := [], params := [], images := [], audit := [], recipes := [], activeFormat := 0 })

end Sys2Proof.Machine
end

