-- ==== Sys2Proof/Machine/Stages.lean ====
section
/-! DEFINITION. ARM (R170, R171), DISARM (R172) and LOCK (R173). -/

namespace Sys2Proof.Machine

open Sys2Proof

/-! ### The checks of ARM -/

/-- An open, complete image (R111). -/
def imageComplete (ims : List Image) (id : Nat) : Bool :=
  match findImage ims id with
  | some im => im.complete
  | none => false

/-- The length of an open image. -/
def imageLength (ims : List Image) (id : Nat) : Option Nat := (findImage ims id).map (fun im => im.length)

/-- Every block item of every loaded recipe with the entry's station and block names an open image of the entry's
length (R170, fifth check of an audit entry). -/
def formatLengthsFit (s : State) (e : AuditEntry) : Bool :=
  s.recipes.all (fun r => r.2.blocks.all (fun it =>
    !(decide (it.station = e.station) && decide (it.block = e.block))
      || decide (imageLength s.images it.image = some e.length)))

/-- The checks of one audit entry, in the order of R170: the ordinal of the first that fails. -/
def entryFault (s : State) (e : AuditEntry) : Option Nat :=
  let c := s.classOf e.station e.block
  if ¬ s.mapped e.station then some 1
  else if c = .free then some 2
  else if decide (c = .format) = e.image.isSome then some 3
  else match e.image with
    | some id =>
      if imageComplete s.images id ∧ imageLength s.images id = some e.length then none else some 4
    | none => if formatLengthsFit s e then none else some 5

/-- The checks of one recipe block (R170): 1, FORMAT for its station; 2, its image open and complete (R170 states both in
one sentence and does not number them: DESIGN CHOICE, log entry 34). -/
def recipeBlockFault (s : State) (it : RecipeBlock) : Option Nat :=
  if s.classOf it.station it.block ≠ .format then some 1
  else if imageComplete s.images it.image then none else some 2

/-- The first faulty audit entry, from index `k` on. -/
def firstEntryFault (s : State) (k : Nat) : List AuditEntry → Option Subject
  | [] => none
  | e :: es => match entryFault s e with
    | some n => some { kind := .auditEntry, number := k, position := 0, check := n }
    | none => firstEntryFault s (k + 1) es

/-- The first parameter whose block is not TUNABLE for its station. -/
def firstParamFault (s : State) : List (Nat × Param) → Option Subject
  | [] => none
  | (k, p) :: rest =>
    if s.classOf p.station p.block = .tunable then firstParamFault s rest
    else some { kind := .parameter, number := k, position := 0, check := 1 }

/-- The first faulty block of one recipe, from place `k` on. -/
def firstBlockFault (s : State) (f k : Nat) : List RecipeBlock → Option Subject
  | [] => none
  | it :: rest => match recipeBlockFault s it with
    | some n => some { kind := .recipeBlock, number := f, position := k, check := n }
    | none => firstBlockFault s f (k + 1) rest

/-- The first faulty recipe block, recipes in format order. -/
def firstRecipeFault (s : State) : List (Nat × Recipe) → Option Subject
  | [] => none
  | (f, r) :: rest => match firstBlockFault s f 0 r.blocks with
    | some x => some x
    | none => firstRecipeFault s rest

/-- The active format names no loaded recipe (R170, fourth group). The number of the subject is the active format's:
R182 gives it none (DESIGN CHOICE, log entry 34). -/
def activeFault (s : State) : Option Subject :=
  if s.activeFormat = 0 ∨ (tableGet s.recipes s.activeFormat).isSome then none
  else some { kind := .activeFormat, number := s.activeFormat, position := 0, check := 1 }

/-- The first of two possible faults. -/
def orElseFault (a b : Option Subject) : Option Subject :=
  match a with
  | some x => some x
  | none => b

/-- The first check of R170 that fails. -/
def armFault (s : State) : Option Subject :=
  orElseFault (firstEntryFault s 0 s.audit)
    (orElseFault (firstParamFault s s.params) (orElseFault (firstRecipeFault s s.recipes) (activeFault s)))

/-! ### ARM -/

/-- An audit entry at ARM (R118, R119, R171). -/
def AuditEntry.armed (e : AuditEntry) (s : State) : AuditEntry :=
  let c := s.classOf e.station e.block
  let e : AuditEntry :=
    { e with cls := some c, resolved := none, expected := none, state := .unchecked, lastCheck := none,
             lastOutcome := none, drift := none }
  match c with
  | .fixed => { e with expected := e.image.bind (imagePrint s.images) }
  | .tunable => { e with expected := tunablePrint s.params s.images e }
  | .format => e.resolve s.recipes s.images s.activeFormat
  | .free => e

/-- Every mapped station that is not MIXED takes the active format (R138, R171). -/
def armFormats (s : State) : State :=
  setFormats (allStations.filter (fun i => s.mapped i && decide ((s.stn i).format ≠ .mixed))) (.fmt s.activeFormat) s

/-- The effects of an accepted ARM, in the order of R171. -/
def armEffects (s : State) : State :=
  let s := { s with stage := .guarding }
  let s := { s with audit := s.audit.map (fun e => e.armed s) }
  let s := armFormats s
  { s with sched := { Scheduler.stopped with paceTimer := some s.timing.auditPace } }

/-- ARM (R170, R171). -/
def takeArm (s : State) : Taken :=
  checked (configRows s) s
    (match armFault s with
     | some x => (.refusedAt .range x, s)
     | none => (.ok .none, armEffects s))

/-! ### DISARM and LOCK -/

/-- An audit entry at DISARM (R118, R172). -/
def AuditEntry.disarmed (e : AuditEntry) : AuditEntry :=
  { e with cls := none, resolved := none, expected := none, state := .unchecked, lastCheck := none,
           lastOutcome := none, drift := none }

/-- An audit check in progress is abandoned (R129, R172). -/
def abandonCheck (s : State) : State :=
  match s.sched.check with
  | some c => leave c.station .audit s
  | none => s

/-- A port at DISARM (R110, R172). -/
def EngPort.disarmed (p : EngPort) : EngPort :=
  { p with strikes := 0, strikeWindow := none, lockout := none,
           state := if p.state = .lockedOut then .ready else p.state }

/-- The effects of an accepted DISARM, in the order of R172. -/
def disarmEffects (s : State) : State :=
  let s := abandonCheck s
  { s with
    sched := .stopped
    audit := s.audit.map AuditEntry.disarmed
    stations := s.stations.map (fun r => { r with sumUnreliable := false })
    eng := s.eng.map EngPort.disarmed
    stage := .configure }

/-- A tool slot is occupied, or the controller is not IDLE (R172). -/
def State.atWork (s : State) : Bool :=
  s.stations.toList.any (fun r => r.slot.isSome) || decide (s.changeover.state ≠ .idle)

/-- DISARM (R172). -/
def takeDisarm (s : State) : Taken :=
  checked [(s.locked, .locked), (decide (s.stage ≠ .guarding), .stage), (!s.keyMaint, .interlock), (s.atWork, .busy)] s
    (.ok .none, disarmEffects s)

/-- LOCK (R173). -/
def takeLock (s : State) : Taken :=
  checked [(decide (s.stage ≠ .guarding), .stage)] s (.ok .none, { s with locked := true })

end Sys2Proof.Machine
end

