-- ==== Sys2Proof/Machine/Reports.lean ====
section
/-! DEFINITION. The requests that read or take something from the guard: STATUS (R159), READ STATION (R5, R25), READ
PARAMETER (R55), READ AUDIT ENTRY and AUDIT NOW (R133), TAKE EVENTS (R166, R167), ACK DRIFT (R132), RELEASE STATION
(R22), and the access channels (R161, R162, R164). -/

namespace Sys2Proof.Machine

open Sys2Proof

/-! ### STATUS and the READ requests -/

/-- The record of a station as reports show it: an unmapped one is shown cleared (R5). -/
def State.shown (s : State) (i : Station) : StationRec := if s.mapped i then s.stn i else .cleared s.activeFormat

/-- The item of the work list being done, with the count of items done (R139). -/
def Changeover.shownPosition (c : Changeover) : Option (Step × Nat) :=
  match c.position with
  | some k => (c.work[k]?).map (fun st => (st, k))
  | none => none

/-- What STATUS reports (R159). A port's lockout remaining is in whole seconds, rounded up as ATTACHED and LOCKED_OUT
round it (R159 and R98 name no rounding for STATUS: DESIGN CHOICE, log entry 38). -/
def statusReport (s : State) : StatusReport :=
  { guardTime := s.guardTime, stage := s.stage, locked := s.locked, activeFormat := s.activeFormat, permit := s.permit,
    attention := s.attention, key := s.inputs.key.accepted, lineRun := s.inputs.lineRun.accepted,
    cover := s.inputs.cover.accepted,
    stations := allStations.map (fun i => ((s.shown i).state, (s.shown i).format)),
    windows := s.windows.length, parameters := s.params.length, images := s.images.length,
    reserved := reservedWords s.images, entries := s.audit.length,
    drifted := (s.audit.filter (fun e => decide (e.state = .drift))).length,
    sweeps := s.sched.sweeps.map (fun q => q.station),
    recipes := (List.range 12).map (fun k => (tableGet s.recipes (k + 1)).map (fun r =>
      (r.blocks.length, r.values.length))),
    chState := s.changeover.state, chKind := s.changeover.kind, chTarget := s.changeover.target,
    chStations := s.changeover.stations, chRestore := s.changeover.restoreEntry,
    chPosition := s.changeover.shownPosition, chFailure := s.changeover.failure,
    ports := allEng.map (fun e => ((s.engp e).state, (s.engp e).strikes, secondsUp ((s.engp e).lockout.getD 0))),
    channels := allChannels.map (fun c => ((s.chan c).state, (s.chan c).work.map (fun w => w.kind))),
    events := s.events.length }

/-- STATUS (R159). -/
def takeStatus (s : State) : Taken := (.ok (.status (statusReport s)), s)

/-- What READ STATION shows of a port (R25). -/
def InhibitPort.view (p : InhibitPort) : InhibitView :=
  { jumper := p.jumper, driven := p.driven, holder := p.holder, fault := decide (p.monitor = .fault) }

/-- READ STATION (R5, R25). -/
def takeReadStation (n : Nat) (s : State) : Taken :=
  match stationOf n with
  | none => (.refused .range, s)
  | some i =>
    (.ok (.station s.roster[i] { s.shown i with slot := none } (s.shown i).slot.isSome (s.unprotected i)
      ((s.portOf i).map (fun p => (s.port p).view))), s)

/-- A parameter with its budget window closed if its closing time has come (R55, R65). -/
def Param.shown (p : Param) (t : Nat) : Param := { p with window := p.openWindow t }

/-- The guard time at which the window closes (R65). -/
def Param.closes (p : Param) : Option Nat :=
  match p.budget, p.window with
  | some (_, minutes), some (start, _) => some (start + 60 * minutes)
  | _, _ => none

/-- READ PARAMETER (R55). -/
def takeReadParameter (k : Nat) (s : State) : Taken :=
  if Config.parameterCapacity ≤ k then (.refused .range, s)
  else match tableGet s.params k with
    | none => (.refused .unknown, s)
    | some p =>
      let p := p.shown s.guardTime
      (.ok (.parameter p p.lo p.hi p.closes), s)

/-- READ AUDIT ENTRY (R133). -/
def takeReadAuditEntry (k : Nat) (s : State) : Taken :=
  if Config.auditCapacity ≤ k then (.refused .range, s)
  else match s.audit[k]? with
    | none => (.refused .unknown, s)
    | some e => (.ok (.auditEntry e (s.checking k)), s)

/-! ### Events, drift, sweeps, quarantine -/

/-- The holdoff after a TAKE EVENTS (R167): started when ATTENTION was asserted and the queue is emptied. -/
def holdoffAfter (s : State) (left : List Event) : Option Nat :=
  if s.attention ∧ left = [] ∧ 0 < s.timing.holdoff then some s.timing.holdoff else s.holdoff

/-- TAKE EVENTS (R166, R167). -/
def takeTakeEvents (s : State) : Taken :=
  (.ok (.events (s.events.take 8)), { s with events := s.events.drop 8, holdoff := holdoffAfter s (s.events.drop 8) })

/-- An entry whose drift record is acknowledged (R132). -/
def AuditEntry.acknowledged (e : AuditEntry) : AuditEntry :=
  { e with drift := none,
           state := if e.cls = some .format ∧ e.resolved = none then .notApplicable else .unchecked }

/-- ACK DRIFT (R132). -/
def takeAckDrift (k : Nat) (s : State) : Taken :=
  if Config.auditCapacity ≤ k then (.refused .range, s)
  else match s.audit[k]? with
    | none => (.refused .unknown, s)
    | some e =>
      if e.state = .drift then (.ok .none, s.modEntry k AuditEntry.acknowledged) else (.refused .unknown, s)

/-- AUDIT NOW (R133). -/
def takeAuditNow (n : Nat) (s : State) : Taken :=
  match stationOf n with
  | none => (.refused .range, s)
  | some i =>
    checked [(decide (s.stage ≠ .guarding), .stage), (!s.online i, .unknown)] s (.ok .none, requestSweep i s)

/-- RELEASE STATION (R22). -/
def takeReleaseStation (n : Nat) (s : State) : Taken :=
  match stationOf n with
  | none => (.refused .range, s)
  | some i =>
    checked [(!s.keyMaint, .interlock), (decide ((s.stn i).state ≠ .quarantined), .unknown)] s
      (.ok .none, releaseStation i s)

/-! ### Access channels -/

/-- The lowest-numbered FREE channel (R161, R162). -/
def freeChannel (s : State) : Option ChanId := allChannels.find? (fun c => decide ((s.chan c).state = .free))

/-- A channel takes work (R161, R162): WAITING, and placed at ACCESS priority. -/
def startWork (c : ChanId) (w : AccessWork) (s : State) : State :=
  place w.station (.access c) (s.setChan c { state := .waiting, work := some w })

/-- The station of a DIRECT READ whose fields are in range (R161). -/
def directReadStation (r : DirectReadReq) : Option Station :=
  if r.block ≤ 1023 ∧ r.offset ≤ 255 ∧ 1 ≤ r.count ∧ r.count ≤ 64 ∧ r.offset + r.count ≤ 256 then stationOf r.station
  else none

/-- DIRECT READ (R161). -/
def takeDirectRead (r : DirectReadReq) (s : State) : Taken :=
  match directReadStation r with
  | none => (.refused .range, s)
  | some i =>
    match freeChannel s with
    | none => checked [(!s.up i, .unknown)] s (.refused .busy, s)
    | some c =>
      checked [(!s.up i, .unknown)] s
        (.ok (.channel c), startWork c
          { kind := .directRead, station := i, block := r.block, offset := r.offset, count := r.count, image := none,
            got := [], result := none } s)

/-- The station of a CAPTURE whose fields are in range (R162). -/
def captureStation (r : CaptureReq) : Option Station :=
  if r.block ≤ 1023 ∧ r.image < Config.imageCapacity then stationOf r.station else none

/-- CAPTURE (R114, R162). -/
def takeCapture (r : CaptureReq) (s : State) : Taken :=
  match captureStation r with
  | none => refusedRange s
  | some i =>
    match findImage s.images r.image with
    | none => checked (configRows s ++ [(true, .unknown)]) s (.refused .unknown, s)
    | some im =>
      let rows := configRows s ++
        [(!s.up i, .unknown), (decide (im.words.length ≠ 0) || im.capture.isSome, .order)]
      match freeChannel s with
      | none => checked (rows ++ [(true, .busy)]) s (.refused .busy, s)
      | some c =>
        checked rows s
          (.ok (.channel c), startWork c
            { kind := .capture, station := i, block := r.block, offset := 0, count := im.length, image := some r.image,
              got := [], result := none }
            { s with images := modImage s.images r.image (fun im => { im with capture := some c }) })

/-- TAKE ACCESS RESULT (R164). -/
def takeAccessResult (n : Nat) (s : State) : Taken :=
  match channelOf n with
  | none => (.refused .range, s)
  | some c =>
    match (s.chan c).state, (s.chan c).work with
    | .done, some w => (.ok (.access w), s.setChan c .free)
    | _, _ => (.refused .unknown, s)

end Sys2Proof.Machine
end

