-- ==== Sys2Proof/Machine/Operations.lean ====
section
/-! DEFINITION. The six requests of the changeover controller (R140 to R144, R152, R153). -/

namespace Sys2Proof.Machine

open Sys2Proof

/-! ### Checks -/

/-- The refusal the controller's state gives OPEN CHANGEOVER and RESTORE BLOCK (R140). -/
def startRow : ChState → Option Reason
  | .idle => none
  | _ => some .busy

/-- The refusal it gives APPLY and CANCEL (R140). -/
def openRow : ChState → Option Reason
  | .idle => some .unknown
  | .opened => none
  | .applying => some .busy
  | .verifying => some .busy
  | .failed => some .order

/-- The refusal it gives REVERT and CLOSE (R140). -/
def failedRow : ChState → Option Reason
  | .idle => some .unknown
  | .opened => some .order
  | .applying => some .busy
  | .verifying => some .busy
  | .failed => none

/-- The stage, then the controller's state, then a request's own checks (R140). -/
def controllerChecked (row : ChState → Option Reason) (s : State) (own : Taken) : Taken :=
  if s.stage ≠ .guarding then (.refused .stage, s)
  else match row s.changeover.state with
    | some r => (.refused r, s)
    | none => own

/-- A refusal that names a station (R141). -/
def refusedStation (r : Reason) (i : Station) : Response := .refusedAt r (.of .station (stationNumber i))

/-- A station of a set that a test takes, the lowest first. -/
def lowestOf (set : List Station) (test : Station → Bool) : Option Station := set.find? test

/-- The mode of a station is RUN or absent (R141, R144). -/
def State.mayRun (s : State) (i : Station) : Bool :=
  decide ((s.stn i).mode = some .run) || decide ((s.stn i).mode = none)

/-- The checks that OPEN, APPLY and REVERT share (R141, R144, R152). -/
def interlockRefusal (set : List Station) (s : State) : Option Response :=
  if ¬ s.interlockOk then some (.refused .interlock)
  else match lowestOf set (fun i => !s.online i) with
    | some i => some (refusedStation .interlock i)
    | none => match lowestOf set (fun i => s.mayRun i) with
      | some i => some (refusedStation .interlock i)
      | none => none

/-! ### OPEN, APPLY, CANCEL -/

/-- The effect of an accepted OPEN CHANGEOVER (R141, R142). -/
def openEffects (f : Nat) (set : List Station) (s : State) : State :=
  auditHold set
    { s with changeover := { Changeover.idle with
        state := .opened, kind := some .changeover, target := some f, stations := set } }

/-- OPEN CHANGEOVER's own checks (R141). -/
def openChecked (f : Nat) (s : State) : Taken :=
  match tableGet s.recipes f with
  | none => (.refused .unknown, s)
  | some r =>
    let set := recipeStations s.params r
    if r.blocks = [] ∧ r.values = [] then (.refused .unknown, s)
    else match interlockRefusal set s with
      | some a => (a, s)
      | none => match lowestOf set (fun i => (s.stn i).slot.isSome) with
        | some i => (refusedStation .busy i, s)
        | none => (.ok (.stations set), openEffects f set s)

/-- OPEN CHANGEOVER (R140, R141). -/
def takeOpen (f : Nat) (s : State) : Taken :=
  if formatInRange f then controllerChecked startRow s (openChecked f s) else (.refused .range, s)

/-- The work list of a format's recipe on the stations held (R144, R152). -/
def buildWork (f : Nat) (s : State) : List Step :=
  match tableGet s.recipes f with
  | some r => workList s.params r s.changeover.stations
  | none => []

/-- Work begins (R144, R152); an empty list has no step, and the operation succeeds at once. -/
def launch (work : List Step) (s : State) : State :=
  let s := modCh (fun c => { c with state := .applying, work := work }) s
  if work = [] then succeed s else beginWork .applying s

/-- APPLY CHANGEOVER (R144). -/
def takeApply (s : State) : Taken :=
  controllerChecked openRow s
    (match interlockRefusal s.changeover.stations s with
     | some a => (a, s)
     | none => (.ok .none, launch (buildWork (s.changeover.target.getD 0) s) s))

/-- The hold is released and the record returns to its reset values (R143, R152). -/
def releaseHold (s : State) : State := { auditRelease s.changeover.stations s with changeover := .idle }

/-- CANCEL CHANGEOVER (R143). -/
def takeCancel (s : State) : Taken := controllerChecked openRow s (.ok .none, releaseHold s)

/-! ### REVERT and CLOSE -/

/-- The effect of an accepted REVERT CHANGEOVER (R152). -/
def revertEffects (s : State) : State :=
  let a := s.activeFormat
  launch (buildWork a s)
    (modCh (fun c => { c with kind := some .revert, target := some a, failure := none }) s)

/-- REVERT CHANGEOVER (R152). -/
def takeRevert (s : State) : Taken :=
  controllerChecked failedRow s
    (if s.activeFormat = 0 then (.refused .unknown, s)
     else match interlockRefusal s.changeover.stations s with
       | some a => (a, s)
       | none => (.ok .none, revertEffects s))

/-- CLOSE CHANGEOVER (R152). -/
def takeClose (s : State) : Taken := controllerChecked failedRow s (.ok .none, releaseHold s)

/-! ### RESTORE BLOCK -/

/-- An entry RESTORE BLOCK refuses UNKNOWN (R153). -/
def AuditEntry.unrestorable (e : AuditEntry) : Bool :=
  decide (e.state = .notApplicable)
    || (decide (e.cls = some .format) && decide (e.state = .drift) && decide (e.resolved = none))

/-- The effect of an accepted RESTORE BLOCK (R153): the restore words are fixed at this moment. -/
def restoreEffects (k : Nat) (e : AuditEntry) (s : State) : State :=
  let words := referenceWords s.params s.images e
  let s := { s with changeover := { Changeover.idle with
      state := .applying, kind := some .restore, stations := [e.station], restoreEntry := some k,
      work := [.restore e.station e.block words] } }
  beginWork .applying (auditHold [e.station] s)

/-- RESTORE BLOCK's own checks (R153). -/
def restoreChecked (k : Nat) (s : State) : Taken :=
  match s.audit[k]? with
  | none => (.refused .unknown, s)
  | some e =>
    checked
      [(e.unrestorable, .unknown), (!s.interlockOk, .interlock), (!s.online e.station, .interlock),
       ((s.stn e.station).slot.isSome, .busy)] s
      (.ok .none, restoreEffects k e s)

/-- RESTORE BLOCK (R140, R153). -/
def takeRestore (k : Nat) (s : State) : Taken :=
  if k < Config.auditCapacity then controllerChecked startRow s (restoreChecked k s) else (.refused .range, s)

end Sys2Proof.Machine
end

