-- ==== Sys2Proof/Machine/Supervisor.lean ====
section
/-! DEFINITION. The supervisor link (R156, R157): requests taken, held and discarded; RESTART (R175). -/

namespace Sys2Proof.Machine

open Sys2Proof

/-- RESTART (R175): its reset begins when its reply has been sent whole (`replySent`). -/
def takeRestart (s : State) : Taken :=
  checked [(s.locked, .locked)] s (.ok .none, { s with sup := { s.sup with restarting := true } })

/-- Every request's answer and effect. -/
def respond (q : SupRequest) (s : State) : Taken :=
  match q with
  | .setPortMap r => takeSetPortMap r s
  | .setStation r => takeSetStation r s
  | .setInput r => takeSetInput r s
  | .setTiming r => takeSetTiming r s
  | .loadWindow r => takeLoadWindow r s
  | .loadParameter r => takeLoadParameter r s
  | .loadImage r => takeLoadImage r s
  | .loadImageWords r => takeLoadImageWords r s
  | .addAuditEntry r => takeAddAuditEntry r s
  | .loadRecipe r => takeLoadRecipe r s
  | .loadRecipeBlock r => takeLoadRecipeBlock r s
  | .loadRecipeValue r => takeLoadRecipeValue r s
  | .setActiveFormat f => takeSetActiveFormat f s
  | .clearTables => takeClearTables s
  | .arm => takeArm s
  | .disarm => takeDisarm s
  | .lock => takeLock s
  | .restart => takeRestart s
  | .status => takeStatus s
  | .readStation n => takeReadStation n s
  | .readParameter n => takeReadParameter n s
  | .readAuditEntry n => takeReadAuditEntry n s
  | .takeEvents => takeTakeEvents s
  | .ackDrift n => takeAckDrift n s
  | .auditNow n => takeAuditNow n s
  | .releaseStation n => takeReleaseStation n s
  | .directRead r => takeDirectRead r s
  | .capture r => takeCapture r s
  | .takeAccessResult n => takeAccessResult n s
  | .openChangeover f => takeOpen f s
  | .applyChangeover => takeApply s
  | .cancelChangeover => takeCancel s
  | .revertChangeover => takeRevert s
  | .closeChangeover => takeClose s
  | .restoreBlock n => takeRestore n s
  | .badRecord => (.refused .badRecord, s)

/-- The reply to a request: the head of R157 with the overrun flag as it stands, and the body. -/
def replyOf (tag : Byte) (overrun : Bool) (r : Response) : SupReply :=
  { tag := tag, status := r.status, reason := r.reason, overrun := overrun, subject := r.subject, body := r.body }

/-- The reply begins to be sent (R156, R157): the link is answering, and the overrun flag it carries is cleared. -/
def beginReply (r : SupReply) (s : State) : State :=
  { s with sup := { s.sup with answering := some r, overrun := false } }

/-- A request is taken (R156): its effect is made, and its reply begins to be sent. -/
def takeRequest (tag : Byte) (q : SupRequest) (s : State) : State :=
  let t := respond q s
  beginReply (replyOf tag s.sup.overrun t.1) t.2

/-- A request arrives (R156): taken when the link is idle, held when it is answering, discarded with the overrun flag
set when one is held already. -/
def supArrive (tag : Byte) (q : SupRequest) : State → State := whenRunning (fun s =>
  match s.sup.answering, s.sup.held with
  | none, _ => takeRequest tag q s
  | some _, none => { s with sup := { s.sup with held := some (tag, q) } }
  | some _, some _ => { s with sup := { s.sup with overrun := true } })

/-- The last byte of a reply has been sent (R156): the link is idle, and a held request is taken at once. After
RESTART's reply the reset begins, and a held request is discarded unanswered (R175, log entry 9). -/
def replySent : State → State := whenRunning (fun s =>
  match s.sup.answering with
  | none => s
  | some r =>
    if s.sup.restarting then startUp .request { s with sup := { s.sup with lastSent := some r } }
    else match s.sup.held with
    | none => { s with sup := { s.sup with answering := none, lastSent := some r } }
    | some (tag, q) => takeRequest tag q { s with sup := { s.sup with answering := none, held := none, lastSent := some r } })

end Sys2Proof.Machine
end

