-- ==== Sys2Proof/Machine/Receivers.lean ====
section
/-! DEFINITION. The receivers of the links (R7, R101, R156, R178): bytes assembled into frames, and a good frame handed
to the block that takes it. -/

namespace Sys2Proof.Machine

open Sys2Proof

/-- A frame with a good check arrives on a station link (R7, R180). -/
def stationBytes (i : Station) (f : Frame) : State → State := whenRunning (fun s =>
  match parseReply f.kind f.body with
  | some r => stationFrame i f.tag r s
  | none => s)

/-- A reply of a station arrives on its link (R7). -/
def stationReply (i : Station) (seq : Byte) (r : StationReply) : State → State := whenRunning (stationFrame i seq r)

/-- The bytes of a link's frame in assembly. -/
def State.rxOf (s : State) : LinkId → List Byte
  | .station i => (s.link i).rx
  | .engineering e => (s.engp e).rx
  | .supervisor => s.sup.rx

/-- Sets the bytes of a link's frame in assembly. -/
def setRx (l : LinkId) (bytes : List Byte) (s : State) : State :=
  match l with
  | .station i => s.modLink i (fun r => { r with rx := bytes })
  | .engineering e => s.modEng e (fun p => { p with rx := bytes })
  | .supervisor => { s with sup := { s.sup with rx := bytes } }

/-- A link's receiver takes bytes: a mapped station's, an attached and settled tool's, the supervisor's (R99, R101). -/
def State.listens (s : State) : LinkId → Bool
  | .station i => s.mapped i
  | .engineering e => decide ((s.engp e).state ≠ .detached) && decide ((s.engp e).state ≠ .settling)
  | .supervisor => true

/-- A good frame is taken. -/
def takeFrame (l : LinkId) (f : Frame) (s : State) : State :=
  match l with
  | .station i => stationBytes i f s
  | .engineering e => toolFrame e f.tag (parseTool f.kind f.body) s
  | .supervisor => supArrive f.tag (parseRequest f.kind f.body) s

/-- A completed frame is taken when its check is good, and discarded otherwise (R178). -/
def takeWhole (l : LinkId) (whole : Option (List Byte)) (s : State) : State :=
  match whole with
  | none => s
  | some bytes => match frameOf bytes with
    | some f => takeFrame l f s
    | none => s

/-- One byte arrives on a link (R101, R178). -/
def feedByte (l : LinkId) (b : Byte) : State → State := whenRunning (fun s =>
  if s.listens l then
    let r := receiverStep (s.rxOf l) b
    takeWhole l r.2 (setRx l r.1 s)
  else s)

/-- Bytes arrive on a link, one after another. -/
def feed (l : LinkId) : List Byte → State → State
  | [], s => s
  | b :: bs, s => feed l bs (feedByte l b s)

/-- More than 5 ms have passed since the last byte: the frame in assembly is abandoned, and the bytes that follow are
looked at afresh (R7, R101, R156). -/
def gap (l : LinkId) (bytes : List Byte) : State → State := whenRunning (fun s => feed l bytes (setRx l [] s))

end Sys2Proof.Machine
end

