-- ==== Sys2Proof/Machine/FrameFamily.lean ====
section
/-! DEFINITION. Bytes that form no good frame on any link (R7, R101, R156, R178). -/

namespace Sys2Proof.Machine

open Sys2Proof

/-- FRAME_CHECK_FAILED (R7, R101, R156, R178). -/
def execFrameCheckFailed (l : LinkId) (bytes : List Byte) (s : State) : Host.Outcome State Fault Refusal :=
  .next (feed l bytes s)

/-- INTERBYTE_GAP (R7, R101, R156). -/
def execInterbyteGap (l : LinkId) (bytes : List Byte) (s : State) : Host.Outcome State Fault Refusal :=
  .next (gap l bytes s)

/-- FRAME_LENGTH_OVERRANGE (R101, R156, R178). -/
def execFrameLengthOverrange (l : LinkId) (bytes : List Byte) (s : State) : Host.Outcome State Fault Refusal :=
  .next (feed l bytes s)

end Sys2Proof.Machine
end

