-- ==== Sys2Proof/Machine/PowerFamily.lean ====
section
/-! DEFINITION. The commands of supply, reset and time. -/

namespace Sys2Proof.Machine

open Sys2Proof

/-- POWER_ON (R4, R23, R24, R25, R32, R36, R39, R41). -/
def execPowerOn (moved : List (Port × Jumper)) (s : State) : Host.Outcome State Fault Refusal :=
  .next (powerOn (moveJumpers moved s))

/-- RESET_TERMINAL (R23, R32, R39, R93, R139, R169, R176). -/
def execResetTerminal (s : State) : Host.Outcome State Fault Refusal :=
  .next (resetHeldLong s)

/-- RESET_TERMINAL_RELEASE (R4, R23, R24, R25, R36, R41, R54, R77). -/
def execResetTerminalRelease (moved : List (Port × Jumper)) (s : State) : Host.Outcome State Fault Refusal :=
  .next (resetFalls (moveJumpers moved s))

/-- GUARD_TIME_TICK (R168). -/
def execGuardTimeTick (s : State) : Host.Outcome State Fault Refusal :=
  .next (tick s)

/-- BUDGET_WINDOW_CLOSE (R65). -/
def execBudgetWindowClose (index : Nat) (s : State) : Host.Outcome State Fault Refusal :=
  .next (closeWindow index s)

/-- ATTENTION_HOLDOFF_EXPIRY (R167). -/
def execAttentionHoldoffExpiry (s : State) : Host.Outcome State Fault Refusal :=
  .next (holdoffExpiry s)

/-- SUPPLY_REMOVED (R39). -/
def execSupplyRemoved (s : State) : Host.Outcome State Fault Refusal :=
  .next (stopped .unpowered s)

/-- RESET_TERMINAL_ASSERTED (R176). -/
def execResetTerminalAsserted (s : State) : Host.Outcome State Fault Refusal :=
  .next (resetRises s)

end Sys2Proof.Machine
end

