-- ==== Sys2Proof/Machine/StationFamily.lean ====
section
/-! DEFINITION. The replies of the stations and the timers of the station links. -/

namespace Sys2Proof.Machine

open Sys2Proof

/-- The wait before an IDENT is over (R10). Nothing is sent on an occupied link. -/
def identExpiry (i : Station) : State → State := whenRunning (fun s =>
  if (s.stn i).state = .down ∧ (s.link i).identTimer.isSome ∧ (s.link i).inFlight = none then
    sendRequest i .ident .bringUp (s.modLink i (fun l => { l with identTimer := none }))
  else s)

/-- The pause after a failed training step is over (R13). -/
def pauseExpiry (i : Station) : State → State := whenRunning (fun s =>
  match (s.stn i).state, (s.link i).training with
  | .training, some { first := first, rate := rate, phase := .pause _ } => trainStep i first (rate - 1) s
  | _, _ => s)

/-- The poll interval is over (R15). -/
def pollExpiry (i : Station) : State → State := whenRunning (fun s =>
  if (s.link i).pollTimer.isSome then placePresence i (s.modLink i (fun l => { l with pollTimer := none })) else s)

/-- The reply timeout is over (R7). -/
def timeoutExpiry (i : Station) : State → State := whenRunning (fun s =>
  match (s.link i).inFlight with
  | some t => endTransaction i t .noReply s
  | none => s)

/-- IDENT_TIMER_EXPIRY (R7, R10). -/
def execIdentTimerExpiry (i : Station) (s : State) : Host.Outcome State Fault Refusal :=
  .next (identExpiry i s)

/-- TRAINING_PAUSE_EXPIRY (R12, R13). -/
def execTrainingPauseExpiry (i : Station) (s : State) : Host.Outcome State Fault Refusal :=
  .next (pauseExpiry i s)

/-- POLL_INTERVAL_EXPIRY (R7, R15, R19). -/
def execPollIntervalExpiry (i : Station) (s : State) : Host.Outcome State Fault Refusal :=
  .next (pollExpiry i s)

/-- IDENT_REPLY (R7, R11, R12, R15, R17, R21, R31, R165). -/
def execIdentReply (i : Station) (seq : Byte) (maker model firmware : Word) (serial : BitVec 32) (highest words : Byte) (s : State) :
    Host.Outcome State Fault Refusal :=
  .next (stationReply i seq (.identReply maker model firmware serial highest words) s)

/-- SET_RATE_ACK (R7, R12). -/
def execSetRateAck (i : Station) (seq : Byte) (s : State) : Host.Outcome State Fault Refusal :=
  .next (stationReply i seq .ack s)

/-- ECHO_REPLY (R7, R12, R13, R14, R15, R17, R38, R123). -/
def execEchoReply (i : Station) (seq : Byte) (bytes : List Byte) (s : State) : Host.Outcome State Fault Refusal :=
  .next (stationReply i seq (.echoReply bytes) s)

/-- STATE_REPLY (R7, R9, R15, R16, R18, R19, R26, R27). -/
def execStateReply (i : Station) (seq : Byte) (mode : Byte) (counter : Word) (s : State) :
    Host.Outcome State Fault Refusal :=
  .next (stationReply i seq (.stateReply mode counter) s)

/-- WRITE_ACK (R7, R9, R17, R19, R20, R26, R28, R77). -/
def execWriteAck (i : Station) (seq : Byte) (s : State) : Host.Outcome State Fault Refusal :=
  .next (stationReply i seq .ack s)

/-- DATA_REPLY (R7, R9, R19, R20, R26, R27, R28, R38). -/
def execDataReply (i : Station) (seq : Byte) (words : List Word) (s : State) : Host.Outcome State Fault Refusal :=
  .next (stationReply i seq (.data words) s)

/-- SUM_REPLY (R7, R9, R19, R20, R26, R27, R38, R79). -/
def execSumReply (i : Station) (seq : Byte) (s1 s2 : Word) (s : State) : Host.Outcome State Fault Refusal :=
  .next (stationReply i seq (.sumReply s1 s2) s)

/-- REJECT_REPLY (R7, R9, R10, R12, R13, R15, R17, R19). -/
def execRejectReply (i : Station) (seq : Byte) (reason : Byte) (s : State) : Host.Outcome State Fault Refusal :=
  .next (stationReply i seq (.reject reason) s)

/-- REPLY_TIMEOUT (R7, R9, R10, R12, R13, R15, R17, R19). -/
def execReplyTimeout (i : Station) (s : State) : Host.Outcome State Fault Refusal :=
  .next (timeoutExpiry i s)

/-- MALFORMED_REPLY (R11, R81, R116, R163, R180). -/
def execMalformedReply (i : Station) (seq : Byte) (kind : Byte) (body : List Byte) (s : State) :
    Host.Outcome State Fault Refusal :=
  .next (stationBytes i { kind := kind, tag := seq, body := body } s)

/-- STRAY_FRAME (R7, R23). -/
def execStrayFrame (i : Station) (seq : Byte) (kind : Byte) (body : List Byte) (s : State) :
    Host.Outcome State Fault Refusal :=
  .next (stationBytes i { kind := kind, tag := seq, body := body } s)

end Sys2Proof.Machine
end

