-- ==== Sys2Proof/Machine/SupervisorFamily.lean ====
section
/-! DEFINITION. The requests of the line supervisor and the supervisor link itself. Each request meets the answering state of the link
(R156), and when it is taken the rule of its chapter. -/

namespace Sys2Proof.Machine

open Sys2Proof

/-- SET_PORT_MAP (R1, R2, R4, R10, R17, R20, R31, R32). -/
def execSetPortMap (tag : Byte) (r : PortMapReq) (s : State) : Host.Outcome State Fault Refusal :=
  .next (supArrive tag (.setPortMap r) s)

/-- SET_STATION (R3). -/
def execSetStation (tag : Byte) (r : StationReq) (s : State) : Host.Outcome State Fault Refusal :=
  .next (supArrive tag (.setStation r) s)

/-- SET_INPUT (R34, R35). -/
def execSetInput (tag : Byte) (r : InputReq) (s : State) : Host.Outcome State Fault Refusal :=
  .next (supArrive tag (.setInput r) s)

/-- SET_TIMING (R15, R98, R122, R158). -/
def execSetTiming (tag : Byte) (r : Timing) (s : State) : Host.Outcome State Fault Refusal :=
  .next (supArrive tag (.setTiming r) s)

/-- LOAD_WINDOW (R40). -/
def execLoadWindow (tag : Byte) (r : WindowReq) (s : State) : Host.Outcome State Fault Refusal :=
  .next (supArrive tag (.loadWindow r) s)

/-- LOAD_PARAMETER (R52, R53, R74). -/
def execLoadParameter (tag : Byte) (r : ParameterReq) (s : State) : Host.Outcome State Fault Refusal :=
  .next (supArrive tag (.loadParameter r) s)

/-- LOAD_IMAGE (R111, R112). -/
def execLoadImage (tag : Byte) (r : ImageReq) (s : State) : Host.Outcome State Fault Refusal :=
  .next (supArrive tag (.loadImage r) s)

/-- LOAD_IMAGE_WORDS (R113, R115). -/
def execLoadImageWords (tag : Byte) (r : ImageWordsReq) (s : State) : Host.Outcome State Fault Refusal :=
  .next (supArrive tag (.loadImageWords r) s)

/-- ADD_AUDIT_ENTRY (R117). -/
def execAddAuditEntry (tag : Byte) (r : AuditReq) (s : State) : Host.Outcome State Fault Refusal :=
  .next (supArrive tag (.addAuditEntry r) s)

/-- LOAD_RECIPE (R134). -/
def execLoadRecipe (tag : Byte) (r : RecipeReq) (s : State) : Host.Outcome State Fault Refusal :=
  .next (supArrive tag (.loadRecipe r) s)

/-- LOAD_RECIPE_BLOCK (R135). -/
def execLoadRecipeBlock (tag : Byte) (r : RecipeBlockReq) (s : State) : Host.Outcome State Fault Refusal :=
  .next (supArrive tag (.loadRecipeBlock r) s)

/-- LOAD_RECIPE_VALUE (R136). -/
def execLoadRecipeValue (tag : Byte) (r : RecipeValueReq) (s : State) : Host.Outcome State Fault Refusal :=
  .next (supArrive tag (.loadRecipeValue r) s)

/-- SET_ACTIVE_FORMAT (R74, R76, R137, R138). -/
def execSetActiveFormat (tag : Byte) (f : Nat) (s : State) : Host.Outcome State Fault Refusal :=
  .next (supArrive tag (.setActiveFormat f) s)

/-- CLEAR_TABLES (R41, R54, R111, R115, R118, R131, R134, R137). -/
def execClearTables (tag : Byte) (s : State) : Host.Outcome State Fault Refusal :=
  .next (supArrive tag .clearTables s)

/-- ARM (R37, R38, R39, R42, R43, R44, R46, R118). -/
def execArm (tag : Byte) (s : State) : Host.Outcome State Fault Refusal :=
  .next (supArrive tag .arm s)

/-- DISARM (R20, R37, R38, R92, R110, R118, R122, R125). -/
def execDisarm (tag : Byte) (s : State) : Host.Outcome State Fault Refusal :=
  .next (supArrive tag .disarm s)

/-- LOCK (R39, R169, R173). -/
def execLock (tag : Byte) (s : State) : Host.Outcome State Fault Refusal :=
  .next (supArrive tag .lock s)

/-- RESTART (R4, R23, R24, R25, R32, R36, R39, R41). -/
def execRestart (tag : Byte) (moved : List (Port × Jumper)) (s : State) : Host.Outcome State Fault Refusal :=
  .next (supArrive tag .restart (moveJumpers moved s))

/-- STATUS (R156, R157, R159). -/
def execStatus (tag : Byte) (s : State) : Host.Outcome State Fault Refusal :=
  .next (supArrive tag .status s)

/-- READ_STATION (R5). -/
def execReadStation (tag : Byte) (station : Nat) (s : State) : Host.Outcome State Fault Refusal :=
  .next (supArrive tag (.readStation station) s)

/-- READ_PARAMETER (R55, R59). -/
def execReadParameter (tag : Byte) (index : Nat) (s : State) : Host.Outcome State Fault Refusal :=
  .next (supArrive tag (.readParameter index) s)

/-- READ_AUDIT_ENTRY (R133). -/
def execReadAuditEntry (tag : Byte) (index : Nat) (s : State) : Host.Outcome State Fault Refusal :=
  .next (supArrive tag (.readAuditEntry index) s)

/-- TAKE_EVENTS (R166, R167). -/
def execTakeEvents (tag : Byte) (s : State) : Host.Outcome State Fault Refusal :=
  .next (supArrive tag .takeEvents s)

/-- ACK_DRIFT (R38, R131, R132). -/
def execAckDrift (tag : Byte) (index : Nat) (s : State) : Host.Outcome State Fault Refusal :=
  .next (supArrive tag (.ackDrift index) s)

/-- AUDIT_NOW (R123, R133). -/
def execAuditNow (tag : Byte) (station : Nat) (s : State) : Host.Outcome State Fault Refusal :=
  .next (supArrive tag (.auditNow station) s)

/-- RELEASE_STATION (R10, R17, R22, R31, R38, R114, R163). -/
def execReleaseStation (tag : Byte) (station : Nat) (s : State) : Host.Outcome State Fault Refusal :=
  .next (supArrive tag (.releaseStation station) s)

/-- DIRECT_READ (R19, R160, R161). -/
def execDirectRead (tag : Byte) (r : DirectReadReq) (s : State) : Host.Outcome State Fault Refusal :=
  .next (supArrive tag (.directRead r) s)

/-- CAPTURE (R19, R114, R160, R162). -/
def execCapture (tag : Byte) (r : CaptureReq) (s : State) : Host.Outcome State Fault Refusal :=
  .next (supArrive tag (.capture r) s)

/-- TAKE_ACCESS_RESULT (R164). -/
def execTakeAccessResult (tag : Byte) (channel : Nat) (s : State) : Host.Outcome State Fault Refusal :=
  .next (supArrive tag (.takeAccessResult channel) s)

/-- OPEN_CHANGEOVER (R20, R38, R48, R92, R121, R125, R129, R140). -/
def execOpenChangeover (tag : Byte) (f : Nat) (s : State) : Host.Outcome State Fault Refusal :=
  .next (supArrive tag (.openChangeover f) s)

/-- APPLY_CHANGEOVER (R19, R140, R144, R145). -/
def execApplyChangeover (tag : Byte) (s : State) : Host.Outcome State Fault Refusal :=
  .next (supArrive tag .applyChangeover s)

/-- CANCEL_CHANGEOVER (R38, R119, R121, R140, R143). -/
def execCancelChangeover (tag : Byte) (s : State) : Host.Outcome State Fault Refusal :=
  .next (supArrive tag .cancelChangeover s)

/-- REVERT_CHANGEOVER (R19, R73, R119, R120, R121, R138, R140, R145). -/
def execRevertChangeover (tag : Byte) (s : State) : Host.Outcome State Fault Refusal :=
  .next (supArrive tag .revertChangeover s)

/-- CLOSE_CHANGEOVER (R38, R119, R121, R140, R152). -/
def execCloseChangeover (tag : Byte) (s : State) : Host.Outcome State Fault Refusal :=
  .next (supArrive tag .closeChangeover s)

/-- RESTORE_BLOCK (R19, R20, R38, R43, R44, R48, R75, R92). -/
def execRestoreBlock (tag : Byte) (index : Nat) (s : State) : Host.Outcome State Fault Refusal :=
  .next (supArrive tag (.restoreBlock index) s)

/-- BAD_RECORD (R157, R183). -/
def execBadRecord (tag : Byte) (kind : Byte) (body : List Byte) (s : State) : Host.Outcome State Fault Refusal :=
  .next (supArrive tag (parseRequest kind body) s)

/-- REQUEST_HELD (R156). -/
def execRequestHeld (tag : Byte) (r : SupRequest) (s : State) : Host.Outcome State Fault Refusal :=
  .next (supArrive tag r s)

/-- REQUEST_OVERRUN (R156). -/
def execRequestOverrun (tag : Byte) (r : SupRequest) (s : State) : Host.Outcome State Fault Refusal :=
  .next (supArrive tag r s)

/-- REPLY_TRANSMITTED (R156, R157). -/
def execReplyTransmitted (s : State) : Host.Outcome State Fault Refusal :=
  .next (replySent s)

end Sys2Proof.Machine
end

