-- ==== Sys2Proof/Machine/TerminalFamily.lean ====
section
/-! DEFINITION. The timers and levels of the inhibit ports, the inputs, and the audit pace. -/

namespace Sys2Proof.Machine

open Sys2Proof

/-- The audit pace timer expires (R122). -/
def paceExpiry : State → State := whenRunning auditPaceExpiry

/-- RELEASE_SETTLE_EXPIRY (R7, R27, R79, R80, R145, R146). -/
def execReleaseSettleExpiry (p : Port) (s : State) : Host.Outcome State Fault Refusal :=
  .next (settleExpiry p s)

/-- RELEASE_LIMIT_EXPIRY (R20, R29, R72, R82, R83, R84, R89, R104). -/
def execReleaseLimitExpiry (p : Port) (s : State) : Host.Outcome State Fault Refusal :=
  .next (limitExpiry p s)

/-- INHIBIT_SENSE_CHANGE (R30). -/
def execInhibitSenseChange (p : Port) (level : Bool) (s : State) : Host.Outcome State Fault Refusal :=
  .next (senseChange p level s)

/-- INHIBIT_FAULT (R20, R21, R30, R32, R38, R72, R82, R83). -/
def execInhibitFault (p : Port) (s : State) : Host.Outcome State Fault Refusal :=
  .next (disagreeExpiry p s)

/-- INPUT_RAW_CHANGE (R33, R35, R37). -/
def execInputRawChange (x : InputId) (level : Bool) (s : State) : Host.Outcome State Fault Refusal :=
  .next (rawChange x level s)

/-- INPUT_DEBOUNCE_EXPIRY (R20, R27, R28, R33, R35, R37, R121, R138). -/
def execInputDebounceExpiry (x : InputId) (s : State) : Host.Outcome State Fault Refusal :=
  .next (debounceExpiry x s)

/-- AUDIT_PACE_EXPIRY (R19, R122, R124, R125). -/
def execAuditPaceExpiry (s : State) : Host.Outcome State Fault Refusal :=
  .next (paceExpiry s)

end Sys2Proof.Machine
end

