-- ==== Sys2Proof/Machine/ToolFamily.lean ====
section
/-! DEFINITION. The frames of a tool and the events of an engineering port. -/

namespace Sys2Proof.Machine

open Sys2Proof

/-- TOOL_LIST (R101, R102, R103, R104, R105). -/
def execToolList (e : EngId) (tag : Byte) (s : State) : Host.Outcome State Fault Refusal :=
  .next (toolFrame e tag .list s)

/-- TOOL_READ (R19, R50, R77, R78, R94, R97, R101, R102). -/
def execToolRead (e : EngId) (tag : Byte) (r : ToolReadReq) (s : State) : Host.Outcome State Fault Refusal :=
  .next (toolFrame e tag (.read r) s)

/-- TOOL_WRITE (R19, R26, R27, R37, R42, R43, R44, R45). -/
def execToolWrite (e : EngId) (tag : Byte) (r : ToolWriteReq) (s : State) : Host.Outcome State Fault Refusal :=
  .next (toolFrame e tag (.write r) s)

/-- BAD_REQUEST (R101, R102, R104, R105, R183). -/
def execBadRequest (e : EngId) (tag : Byte) (kind : Byte) (body : List Byte) (s : State) :
    Host.Outcome State Fault Refusal :=
  .next (toolFrame e tag (parseTool kind body) s)

/-- PRESENT_ASSERTED (R99, R100, R165). -/
def execPresentAsserted (e : EngId) (s : State) : Host.Outcome State Fault Refusal :=
  .next (presentAsserted e s)

/-- PRESENT_DROPPED (R100). -/
def execPresentDropped (e : EngId) (s : State) : Host.Outcome State Fault Refusal :=
  .next (presentDropped e s)

/-- DETACH_TIMER_EXPIRY (R92, R100, R165). -/
def execDetachTimerExpiry (e : EngId) (s : State) : Host.Outcome State Fault Refusal :=
  .next (detachExpiry e s)

/-- PORT_SETTLE_EXPIRY (R99, R109). -/
def execPortSettleExpiry (e : EngId) (s : State) : Host.Outcome State Fault Refusal :=
  .next (portSettleExpiry e s)

/-- STRIKE_WINDOW_EXPIRY (R108). -/
def execStrikeWindowExpiry (e : EngId) (s : State) : Host.Outcome State Fault Refusal :=
  .next (strikeWindowExpiry e s)

/-- LOCKOUT_EXPIRY (R105, R109). -/
def execLockoutExpiry (e : EngId) (s : State) : Host.Outcome State Fault Refusal :=
  .next (lockoutExpiry e s)

end Sys2Proof.Machine
end

