-- ==== Sys2Proof/Machine/Dispatch.lean ====
section
/-! DEFINITION. The meaning of every command: one arm per row of spec/opcode_table.json, in the order of the table. -/

namespace Sys2Proof.Machine

open Sys2Proof

def exec (i : Instr) (s : State) : Host.Outcome State Fault Refusal :=
  match i with
  | .powerOn moved => Sys2Proof.Machine.execPowerOn moved s
  | .resetTerminal => Sys2Proof.Machine.execResetTerminal s
  | .resetTerminalRelease moved => Sys2Proof.Machine.execResetTerminalRelease moved s
  | .guardTimeTick => Sys2Proof.Machine.execGuardTimeTick s
  | .budgetWindowClose index => Sys2Proof.Machine.execBudgetWindowClose index s
  | .setPortMap tag r => Sys2Proof.Machine.execSetPortMap tag r s
  | .setStation tag r => Sys2Proof.Machine.execSetStation tag r s
  | .setInput tag r => Sys2Proof.Machine.execSetInput tag r s
  | .setTiming tag r => Sys2Proof.Machine.execSetTiming tag r s
  | .loadWindow tag r => Sys2Proof.Machine.execLoadWindow tag r s
  | .loadParameter tag r => Sys2Proof.Machine.execLoadParameter tag r s
  | .loadImage tag r => Sys2Proof.Machine.execLoadImage tag r s
  | .loadImageWords tag r => Sys2Proof.Machine.execLoadImageWords tag r s
  | .addAuditEntry tag r => Sys2Proof.Machine.execAddAuditEntry tag r s
  | .loadRecipe tag r => Sys2Proof.Machine.execLoadRecipe tag r s
  | .loadRecipeBlock tag r => Sys2Proof.Machine.execLoadRecipeBlock tag r s
  | .loadRecipeValue tag r => Sys2Proof.Machine.execLoadRecipeValue tag r s
  | .setActiveFormat tag f => Sys2Proof.Machine.execSetActiveFormat tag f s
  | .clearTables tag => Sys2Proof.Machine.execClearTables tag s
  | .arm tag => Sys2Proof.Machine.execArm tag s
  | .disarm tag => Sys2Proof.Machine.execDisarm tag s
  | .lock tag => Sys2Proof.Machine.execLock tag s
  | .restart tag moved => Sys2Proof.Machine.execRestart tag moved s
  | .status tag => Sys2Proof.Machine.execStatus tag s
  | .readStation tag station => Sys2Proof.Machine.execReadStation tag station s
  | .readParameter tag index => Sys2Proof.Machine.execReadParameter tag index s
  | .readAuditEntry tag index => Sys2Proof.Machine.execReadAuditEntry tag index s
  | .takeEvents tag => Sys2Proof.Machine.execTakeEvents tag s
  | .ackDrift tag index => Sys2Proof.Machine.execAckDrift tag index s
  | .auditNow tag station => Sys2Proof.Machine.execAuditNow tag station s
  | .releaseStation tag station => Sys2Proof.Machine.execReleaseStation tag station s
  | .directRead tag r => Sys2Proof.Machine.execDirectRead tag r s
  | .capture tag r => Sys2Proof.Machine.execCapture tag r s
  | .takeAccessResult tag channel => Sys2Proof.Machine.execTakeAccessResult tag channel s
  | .openChangeover tag f => Sys2Proof.Machine.execOpenChangeover tag f s
  | .applyChangeover tag => Sys2Proof.Machine.execApplyChangeover tag s
  | .cancelChangeover tag => Sys2Proof.Machine.execCancelChangeover tag s
  | .revertChangeover tag => Sys2Proof.Machine.execRevertChangeover tag s
  | .closeChangeover tag => Sys2Proof.Machine.execCloseChangeover tag s
  | .restoreBlock tag index => Sys2Proof.Machine.execRestoreBlock tag index s
  | .badRecord tag kind body => Sys2Proof.Machine.execBadRecord tag kind body s
  | .requestHeld tag r => Sys2Proof.Machine.execRequestHeld tag r s
  | .requestOverrun tag r => Sys2Proof.Machine.execRequestOverrun tag r s
  | .replyTransmitted => Sys2Proof.Machine.execReplyTransmitted s
  | .frameCheckFailed l bytes => Sys2Proof.Machine.execFrameCheckFailed l bytes s
  | .interbyteGap l bytes => Sys2Proof.Machine.execInterbyteGap l bytes s
  | .frameLengthOverrange l bytes => Sys2Proof.Machine.execFrameLengthOverrange l bytes s
  | .toolList e tag => Sys2Proof.Machine.execToolList e tag s
  | .toolRead e tag r => Sys2Proof.Machine.execToolRead e tag r s
  | .toolWrite e tag r => Sys2Proof.Machine.execToolWrite e tag r s
  | .badRequest e tag kind body => Sys2Proof.Machine.execBadRequest e tag kind body s
  | .presentAsserted e => Sys2Proof.Machine.execPresentAsserted e s
  | .presentDropped e => Sys2Proof.Machine.execPresentDropped e s
  | .detachTimerExpiry e => Sys2Proof.Machine.execDetachTimerExpiry e s
  | .portSettleExpiry e => Sys2Proof.Machine.execPortSettleExpiry e s
  | .strikeWindowExpiry e => Sys2Proof.Machine.execStrikeWindowExpiry e s
  | .lockoutExpiry e => Sys2Proof.Machine.execLockoutExpiry e s
  | .identTimerExpiry st => Sys2Proof.Machine.execIdentTimerExpiry st s
  | .trainingPauseExpiry st => Sys2Proof.Machine.execTrainingPauseExpiry st s
  | .pollIntervalExpiry st => Sys2Proof.Machine.execPollIntervalExpiry st s
  | .identReply st seq maker model firmware serial highest words => Sys2Proof.Machine.execIdentReply st seq maker model firmware serial highest words s
  | .setRateAck st seq => Sys2Proof.Machine.execSetRateAck st seq s
  | .echoReply st seq bytes => Sys2Proof.Machine.execEchoReply st seq bytes s
  | .stateReply st seq mode counter => Sys2Proof.Machine.execStateReply st seq mode counter s
  | .writeAck st seq => Sys2Proof.Machine.execWriteAck st seq s
  | .dataReply st seq words => Sys2Proof.Machine.execDataReply st seq words s
  | .sumReply st seq s1 s2 => Sys2Proof.Machine.execSumReply st seq s1 s2 s
  | .rejectReply st seq reason => Sys2Proof.Machine.execRejectReply st seq reason s
  | .replyTimeout st => Sys2Proof.Machine.execReplyTimeout st s
  | .malformedReply st seq kind body => Sys2Proof.Machine.execMalformedReply st seq kind body s
  | .strayFrame st seq kind body => Sys2Proof.Machine.execStrayFrame st seq kind body s
  | .releaseSettleExpiry p => Sys2Proof.Machine.execReleaseSettleExpiry p s
  | .releaseLimitExpiry p => Sys2Proof.Machine.execReleaseLimitExpiry p s
  | .inhibitSenseChange p level => Sys2Proof.Machine.execInhibitSenseChange p level s
  | .inhibitFault p => Sys2Proof.Machine.execInhibitFault p s
  | .inputRawChange x level => Sys2Proof.Machine.execInputRawChange x level s
  | .inputDebounceExpiry x => Sys2Proof.Machine.execInputDebounceExpiry x s
  | .auditPaceExpiry => Sys2Proof.Machine.execAuditPaceExpiry s
  | .attentionHoldoffExpiry => Sys2Proof.Machine.execAttentionHoldoffExpiry s
  | .supplyRemoved => Sys2Proof.Machine.execSupplyRemoved s
  | .resetTerminalAsserted => Sys2Proof.Machine.execResetTerminalAsserted s

end Sys2Proof.Machine
end

