-- ==== Sys2Proof/Safety.lean ====
section
/-! DEFINITION. What counts as a safe state of the guard, conditions that hold after reset and that every step keeps;
and the words in which claims about commands are made: a guard that takes a request, the answer to a request, a guard
just started or stopped, a transaction in flight. -/

namespace Sys2Proof.Machine

open Sys2Proof

/-! ### The tables -/

/-- No two windows of one station cover a common block, and there are at most 64 (R40). -/
def WindowsOk (ws : List Window) : Prop :=
  ws.Pairwise (fun v w => v.overlaps w = false) ∧ ws.length ≤ Config.windowCapacity

/-- Parameters stand in ascending index below 96, and no two share a word (R52, R53). -/
def ParamsOk (ps : List (Nat × Param)) : Prop :=
  ps.Pairwise (fun a b => a.1 < b.1 ∧ a.2.sharesWord b.2 = false) ∧ ∀ e ∈ ps, e.1 < Config.parameterCapacity

/-- Each image stands just after the words of the one opened before it, from position `m` on (R111). -/
def Stacked (m : Nat) : List Image → Prop
  | [] => True
  | im :: ims => im.position = m ∧ Stacked (m + im.length) ims

/-- Image ids are distinct and below 160, lengths are 1 to 256, and the words reserved stand in order and fit the store
(R111, R112). -/
def ImagesOk (ims : List Image) : Prop :=
  ims.Pairwise (fun a b => a.id ≠ b.id)
    ∧ (∀ im ∈ ims, im.id < Config.imageCapacity ∧ 1 ≤ im.length ∧ im.length ≤ 256)
    ∧ Stacked 0 ims ∧ reservedWords ims ≤ Config.storeWords

/-- No two audit entries name the same station and block, and there are at most 128 (R117). -/
def AuditOk (es : List AuditEntry) : Prop :=
  es.Pairwise (fun a b => ¬ (a.station = b.station ∧ a.block = b.block)) ∧ es.length ≤ Config.auditCapacity

/-- A logical station has one port (R1). -/
def PortMapOk (m : Vector (Option Station) 8) : Prop :=
  ∀ (p q : Port) (i : Station), m[p] = some i → m[q] = some i → p = q

/-- RESTART was taken with the lock flag clear, and its reply is still being sent (R175). -/
def RestartOk (s : State) : Prop := s.sup.restarting = true → s.sup.answering ≠ none ∧ s.locked = false

/-- The stage, the lock flag, RESTART's reply, guard time, the timing values, the port map and the tables are in order
(R1, R40, R53, R111, R117, R158, R168, R169, R175). -/
structure SettingsOk (s : State) : Prop where
  locked : s.locked = true → s.stage = .guarding
  restart : RestartOk s
  time : s.guardTime ≤ Config.guardTimeMax
  timing : clampTiming s.timing = s.timing
  portMap : PortMapOk s.portMap
  windows : WindowsOk s.windows
  params : ParamsOk s.params
  images : ImagesOk s.images
  audit : AuditOk s.audit

/-! ### The event queue -/

/-- The kinds of event a source posts: the 71 keys of section 9.3. -/
def Source.posts : Source → EventKind → Bool
  | .station _, .linkUp => true
  | .station _, .linkDown => true
  | .station _, .quarantined => true
  | .station _, .unexpectedChange => true
  | .station _, .drift => true
  | .station _, .relayTrouble => true
  | .engineering _, .attached => true
  | .engineering _, .detached => true
  | .engineering _, .refusal => true
  | .engineering _, .lockout => true
  | .input _, .inputChange => true
  | .controller, .operationDone => true
  | .channel _, .accessDone => true
  | .guard, .restarted => true
  | _, _ => false

/-- No two events have the same key, every key is one of the 71, and every count is 1 to 255 (R165). -/
def EventsOk (es : List Event) : Prop :=
  (es.map Event.key).Nodup ∧ ∀ e ∈ es, e.source.posts e.detail.kind = true ∧ 1 ≤ e.count ∧ e.count ≤ 255

/-! ### Releases -/

/-- A port is released only under a holder, with a release limit timer of at most 1500 ms running, on a port that is
not in FAULT and whose jumper is not NONE; an asserted port has no holder and no timer (R26, R28 to R30, R32). -/
def InhibitPort.sound (p : InhibitPort) : Prop :=
  match p.driven with
  | .released =>
    p.holder.isSome = true ∧ p.jumper ≠ .none ∧ p.monitor ≠ .fault
      ∧ ∃ ms, p.limitTimer = some ms ∧ ms ≤ Config.releaseLimit
  | .asserted => p.holder = none ∧ p.limitTimer = none ∧ p.settleTimer = none

/-- An inhibit output is driven at its released level only while its station is ONLINE and an operation holds the
release (R26). -/
def ReleasesOk (s : State) : Prop :=
  ∀ p : Port, (s.port p).sound
    ∧ ((s.port p).driven = .released → ∃ i, s.portMap[p] = some i ∧ (s.stn i).state = .online)

/-! ### The words of claims -/

/-- The guard runs and its supervisor link is idle, so a request is taken when it arrives (R156). -/
def State.taking (s : State) : Prop := s.power = .running ∧ s.sup.answering = none

/-- It takes requests, in CONFIGURE with the lock flag clear. -/
def State.configuring (s : State) : Prop := s.taking ∧ s.locked = false ∧ s.stage = .configure

/-- A command is answered: the guard is left as `t` but for its supervisor link, which sends the reply, with the overrun
flag as it stood and now clear (R156, R157). -/
def Answers (c : Instr) (tag : Byte) (s : State) (r : Response) (t : State) : Prop :=
  exec c s = .next { t with sup := { t.sup with
    answering := some { tag := tag, status := r.status, reason := r.reason, overrun := s.sup.overrun, subject := r.subject,
                        body := r.body }
    overrun := false } }

/-- The guard started up with cause `cause` and jumpers `js` (R176): every block at its start values. What was outside
it, the waiting commands and the record of the last reply sent are as they were in `s`. -/
structure Started (cause : ResetCause) (js : Vector Jumper 8) (s t : State) : Prop where
  running : t.power = .running
  time : t.guardTime = 0
  stage : t.stage = .configure ∧ t.locked = false
  stations : ∀ i : Station, t.stn i = .cleared 0 ∧ t.link i = .quiet ∧ t.roster[i] = .default
  ports : ∀ p : Port, t.portMap[p] = none ∧ t.port p = .start js[p]
  inputs : ∀ x, t.inputs.get x = .start (s.inputs.get x).raw
  timing : t.timing = defaultTiming
  tables : t.windows = [] ∧ t.params = [] ∧ t.images = [] ∧ t.audit = [] ∧ t.recipes = [] ∧ t.activeFormat = 0
  atRest : t.sched = .stopped ∧ t.changeover = .idle ∧ ∀ c : ChanId, t.chan c = .free
  eng : ∀ e : EngId, t.engp e = .start (s.engp e).present
  sup : t.sup = .start s.sup.lastSent
  events : t.events = [.restarted cause] ∧ t.holdoff = none
  outputs : t.attention = true ∧ t.permit = false
  waiting : t.pending = s.pending

/-- The guard stopped, in reset or without supply (R39, R176): nothing in it runs, both outputs are off, and every
inhibit terminal rests at its asserted level. -/
structure Halted (p : Power) (s t : State) : Prop where
  power : t.power = p
  ports : ∀ p : Port, t.port p = .start s.jumperField[p]
  links : ∀ i : Station, t.stn i = .cleared 0 ∧ t.link i = .quiet
  idle : t.changeover = .idle ∧ t.sched = .stopped ∧ (∀ c : ChanId, t.chan c = .free) ∧ ∀ e : EngId, (t.engp e).tx = []
  sup : t.sup.answering = none ∧ t.sup.held = none
  outputs : t.attention = false ∧ t.permit = false
  events : t.events = []
  waiting : t.pending = s.pending

/-- `n` ms have run down the timers of `s` and led to `t`: a timer that reaches 0 stands there until its expiry is taken,
so nothing expires, and nothing but the timers, the hold times, the replies in the transmitters and the count of time
changes (log entries 1 to 3 and 10). -/
structure RanDown (n : Nat) (s t : State) : Prop where
  links : ∀ i : Station, t.link i = { s.link i with
    inFlight := (s.link i).inFlight.map (fun x => { x with timeout := x.timeout - n })
    identTimer := (s.link i).identTimer.map (fun ms => ms - n)
    training := (s.link i).training.map (fun x => match x.phase with
      | .pause ms => { x with phase := .pause (ms - n) }
      | _ => x)
    pollTimer := (s.link i).pollTimer.map (fun ms => ms - n) }
  ports : ∀ p : Port, t.port p = { s.port p with
    limitTimer := (s.port p).limitTimer.map (fun ms => ms - n)
    settleTimer := (s.port p).settleTimer.map (fun ms => ms - n)
    monitor := match (s.port p).monitor with
      | .disagree ms => .disagree (ms + n)
      | m => m }
  inputs : ∀ x : InputId, t.inputs.get x = { s.inputs.get x with hold := (s.inputs.get x).hold + n }
  sched : t.sched = { s.sched with paceTimer := s.sched.paceTimer.map (fun ms => ms - n) }
  eng : ∀ e : EngId, t.engp e = { s.engp e with
    settleTimer := (s.engp e).settleTimer.map (fun ms => ms - n)
    detachTimer := (s.engp e).detachTimer.map (fun ms => ms - n)
    strikeWindow := (s.engp e).strikeWindow.map (fun ms => ms - n)
    lockout := (s.engp e).lockout.map (fun ms => ms - n)
    tx := drainTx n (s.engp e).tx }
  holdoff : t.holdoff = s.holdoff.map (fun ms => ms - n)
  resetHeld : t.resetHeld = if s.resetLevel = true then s.resetHeld + n else s.resetHeld
  rest : { t with guardTime := s.guardTime, subSecond := s.subSecond, resetHeld := s.resetHeld, links := s.links,
                  ports := s.ports, inputs := s.inputs, sched := s.sched, eng := s.eng, holdoff := s.holdoff } = s

/-- The transaction in flight on a link: sent for `u`, which holds the link while nobody waits for it (R7, R19). -/
def Alone (s : State) (i : Station) (seq : Byte) (q : StationRequest) (u : LinkUser) : Prop :=
  s.power = .running ∧ (s.link i).holder = some u ∧ (s.link i).waiters = []
    ∧ ∃ ms, (s.link i).inFlight = some { seq := seq, request := q, owner := some u, timeout := ms }

/-- The state with the link of a station idle and free. -/
def State.freed (s : State) (i : Station) : State := s.modLink i (fun l => { l with holder := none, inFlight := none })

/-- The same state but for one station's record and link, and the event queue. -/
def SameBut (i : Station) (s t : State) : Prop :=
  { t with stations := s.stations, links := s.links, events := s.events } = s
    ∧ ∀ j : Station, j ≠ i → t.stn j = s.stn j ∧ t.link j = s.link j

/-- The next WRITE of a controller's step of which `done` words, or values, are written (R145, R146, R154): the words of
the image, or of the restore, from offset `done` on, as many as a frame of the station carries; or one value of the
recipe, encoded into its parameter's words. None is left when all are written. -/
def NextWrite (s : State) (st : Step) (done block offset : Nat) (words : List Word) : Prop :=
  match st with
  | .block i b _ im => block = b ∧ offset = done ∧ words ≠ []
      ∧ words = ((imageWords s.images im).drop done).take (s.stn i).wordsPerFrame
  | .restore i b all => block = b ∧ offset = done ∧ words ≠ [] ∧ words = (all.drop done).take (s.stn i).wordsPerFrame
  | .values _ items => ∃ key v p, items[done]? = some (key, v) ∧ tableGet s.params key = some p ∧ block = p.block
      ∧ offset = p.offset ∧ words = p.encode v

/-- Nothing of a controller's step is left to write once `done` words, or values, are written. -/
def WrittenWhole (s : State) (st : Step) (done : Nat) : Prop :=
  match st with
  | .block _ _ _ im => (imageWords s.images im).length ≤ done
  | .restore _ _ all => all.length ≤ done
  | .values _ items => items.length ≤ done

/-- The first request of an operation that has just been granted the link of station `i` (R15, R79, R94, R126, R127, R145,
R148, R163): `q` goes out at once. A relay is among them only on a port of jumper NONE, for on another one a release comes
first. -/
def FirstRequest (s : State) (i : Station) (u : LinkUser) (q : StationRequest) : Prop :=
  let words := (s.stn i).wordsPerFrame
  match u with
  | .bringUp => False
  | .presence => q = .state
  | .access c => ∃ w, (s.chan c).work = some w ∧ w.station = i ∧ w.got = []
      ∧ q = .read w.block w.offset (min words w.count)
  | .audit => ∃ c e, s.sched.check = some c ∧ c.station = i ∧ c.got = [] ∧ s.audit[c.entry]? = some e
      ∧ q = if e.readMode = true ∨ (s.stn i).sumUnreliable = true then .read e.block 0 (min words e.length)
          else .sum e.block e.length
  | .tool => ∃ op, (s.stn i).slot = some op ∧ (op.write = false ∧ op.got = []
        ∧ q = .read op.block op.offset (min words op.count)
      ∨ op.write = true ∧ op.acked = 0 ∧ (∃ p, s.portOf i = some p ∧ (s.port p).jumper = .none)
        ∧ q = .write op.block op.offset (op.words.take (min words op.words.length)))
  | .changeover => ∃ st, s.changeover.step = some st ∧ st.station = i ∧ (s.changeover.state = .applying ∧ q = .state
      ∨ s.changeover.state = .verifying ∧ ∃ block offset ws, NextWrite s st s.changeover.done block offset ws
        ∧ q = .read block offset ws.length)

/-- What a failure record names of a step (R139, R147): the station, the block with its pass, or the parameter of the
value after the `done` values written. -/
def failureOf (st : Step) (done : Nat) (cause : Cause) (seen : Option Seen) : Failure :=
  match st with
  | .block i b pass _ =>
    { cause := cause, station := some i, item := some (.block b), pass := some pass, seen := seen }
  | .restore i b _ => { cause := cause, station := some i, item := some (.block b), pass := none, seen := seen }
  | .values i items =>
    { cause := cause, station := some i, item := (items[done]?).map (fun x => .parameter x.1), pass := none, seen := seen }

/-- The same state but for one station's record and link, its inhibit port, the controller, the scheduler and the event
queue. -/
def SameButStep (i : Station) (s t : State) : Prop :=
  SameBut i s { t with ports := s.ports, changeover := s.changeover, sched := s.sched }
    ∧ ∀ p : Port, s.portOf i ≠ some p → t.port p = s.port p

/-- A changeover or revert has failed with `f` at a step on station `i` (R151): the controller is FAILED, the stations
held are MIXED, OPERATION_DONE is posted behind `events`, the release is returned and the link given up; the hold and the
tables stay. -/
structure FailedAt (i : Station) (kind : ChKind) (f : Failure) (events : List Event) (s t : State) : Prop where
  controller : t.changeover = { s.changeover with
    state := .failed, failure := some f, work := [], position := none, phase := .waiting, done := 0, got := [],
    stop := none }
  mixed : ∀ j : Station, (t.stn j).format = if j ∈ s.changeover.stations then .mixed else (s.stn j).format
  link : (t.link i).holder = none ∧ (t.link i).inFlight = none
  released : ∀ p : Port, s.portOf i = some p → (t.port p).holder ≠ some .changeover
  tables : t.activeFormat = s.activeFormat ∧ t.params = s.params ∧ t.audit = s.audit
  events : t.events = postEvent s.guardTime .controller
    (.operationDone kind .failed (s.changeover.target.getD 0) (some f)) events

/-- What the end of an operation makes of audit entry `m`, which was `e` (R121, R149, R152, R154): a SUSPENDED entry of a
station held becomes UNCHECKED with last check and last outcome absent; a FORMAT entry of a station held, or of any
station where `everywhere` says so, is resolved against format `g`; a TUNABLE entry with a word of a parameter that took
one of the values `vs` expects its image with the current values of now (R120); every other field stays. -/
def EntryReleased (stations : List Station) (g : Nat) (everywhere : Bool) (vs : List (Nat × Int)) (s t : State) (m : Nat)
    (e : AuditEntry) : Prop :=
  let image := resolvedImage s.recipes g e.station e.block
  let resolves : Prop := e.cls = some .format ∧ (everywhere = true ∨ e.station ∈ stations)
  let woken : AuditEntry := if e.station ∈ stations ∧ e.state = .suspended then
    { e with state := .unchecked, lastCheck := none, lastOutcome := none } else e
  let touched : Prop := e.cls = some .tunable ∧ ∃ key v p, (key, v) ∈ vs ∧ tableGet s.params key = some p
    ∧ p.station = e.station ∧ p.block = e.block ∧ p.offset < e.length
  (∀ id, resolves → image = some id → t.audit[m]? = some
    { woken with
      resolved := some id
      expected := imagePrint s.images id
      state := if woken.state = .notApplicable then .unchecked else woken.state })
  ∧ (resolves → image = none → t.audit[m]? = some
    { woken with
      resolved := none
      expected := none
      state := if woken.state = .drift ∨ woken.state = .suspended then woken.state else .notApplicable })
  ∧ (¬ resolves → ∃ x : Option Fingerprint, t.audit[m]? = some { woken with expected := x }
      ∧ (¬ touched → x = e.expected)
      ∧ (∀ id, touched → e.image = some id → ∃ words : List Word, x = some (fingerprint words)
          ∧ words.length = (imageWords s.images id).length
          ∧ ∀ (j : Nat) (w : Word), (imageWords s.images id)[j]? = some w → words[j]? = some
              (match paramAt t.params e.station e.block j with
               | some (_, p) => (p.encode p.current).getD (j - p.offset) w
               | none => w)))

/-- The command that carries a request; a RESTART finds no jumper moved. -/
def commandOf (tag : Byte) : SupRequest → Option Instr
  | .setPortMap r => some (.setPortMap tag r)
  | .setStation r => some (.setStation tag r)
  | .setInput r => some (.setInput tag r)
  | .setTiming r => some (.setTiming tag r)
  | .loadWindow r => some (.loadWindow tag r)
  | .loadParameter r => some (.loadParameter tag r)
  | .loadImage r => some (.loadImage tag r)
  | .loadImageWords r => some (.loadImageWords tag r)
  | .addAuditEntry r => some (.addAuditEntry tag r)
  | .loadRecipe r => some (.loadRecipe tag r)
  | .loadRecipeBlock r => some (.loadRecipeBlock tag r)
  | .loadRecipeValue r => some (.loadRecipeValue tag r)
  | .setActiveFormat n => some (.setActiveFormat tag n)
  | .clearTables => some (.clearTables tag)
  | .arm => some (.arm tag)
  | .disarm => some (.disarm tag)
  | .lock => some (.lock tag)
  | .restart => some (.restart tag [])
  | .status => some (.status tag)
  | .readStation n => some (.readStation tag n)
  | .readParameter n => some (.readParameter tag n)
  | .readAuditEntry n => some (.readAuditEntry tag n)
  | .takeEvents => some (.takeEvents tag)
  | .ackDrift n => some (.ackDrift tag n)
  | .auditNow n => some (.auditNow tag n)
  | .releaseStation n => some (.releaseStation tag n)
  | .directRead r => some (.directRead tag r)
  | .capture r => some (.capture tag r)
  | .takeAccessResult n => some (.takeAccessResult tag n)
  | .openChangeover n => some (.openChangeover tag n)
  | .applyChangeover => some (.applyChangeover tag)
  | .cancelChangeover => some (.cancelChangeover tag)
  | .revertChangeover => some (.revertChangeover tag)
  | .closeChangeover => some (.closeChangeover tag)
  | .restoreBlock n => some (.restoreBlock tag n)
  | .badRecord => none

/-- The requests answered LOCKED while the lock flag is set (R173): every configuration request, CAPTURE, DISARM and
RESTART. -/
def lockable : SupRequest → Bool
  | .setPortMap _ => true
  | .setStation _ => true
  | .setInput _ => true
  | .setTiming _ => true
  | .loadWindow _ => true
  | .loadParameter _ => true
  | .loadImage _ => true
  | .loadImageWords _ => true
  | .addAuditEntry _ => true
  | .loadRecipe _ => true
  | .loadRecipeBlock _ => true
  | .loadRecipeValue _ => true
  | .setActiveFormat _ => true
  | .clearTables => true
  | .arm => true
  | .disarm => true
  | .restart => true
  | .capture _ => true
  | _ => false

end Sys2Proof.Machine
end

