-- ==== Sys2Proof/WellFormed.lean ====
section
/-! DEFINITION. When the operands of a command are ones a frame or a terminal can carry: every number fits the field
that brings it (R177, R179, R181, R182), every list has the length its layout gives. A value outside the range a rule
allows is well formed here, for the meaning answers it. The meanings are defined on ill-formed terms too. -/

namespace Sys2Proof

/-- A one-byte field. -/
def fits1 (n : Nat) : Bool := decide (n < 256)
/-- A two-byte field. -/
def fits2 (n : Nat) : Bool := decide (n < 65536)
/-- A four-byte field. -/
def fits4 (n : Nat) : Bool := decide (n < 4294967296)
/-- An optional field. -/
def fitsOpt {α : Type} (f : α → Bool) : Option α → Bool
  | none => true
  | some x => f x

/-- The eight values of a port map are bytes. -/
def PortMapReq.wf (r : PortMapReq) : Bool := fits1 r.mode && r.values.toList.all fits1

/-- The fields of a roster entry fit, and the name fills its field of 12 bytes. -/
def StationReq.wf (r : StationReq) : Bool :=
  fits1 r.station && decide (r.name.length = 12) && fitsOpt fits1 r.ceiling && fits2 r.replyTimeout
    && fits2 r.releaseSettle && fits1 r.required && fits1 r.defaultClass

/-- The fields of SET INPUT fit. -/
def InputReq.wf (r : InputReq) : Bool := fits1 r.input && fits2 r.checkTime && fits1 r.mode

/-- The six values of SET TIMING fit. -/
def Timing.wf (t : Timing) : Bool :=
  fits2 t.pollInterval && fits2 t.auditPace && fits2 t.strikeWindow && fits2 t.strikeLimit && fits2 t.lockout
    && fits2 t.holdoff

/-- The fields of LOAD WINDOW fit. -/
def WindowReq.wf (r : WindowReq) : Bool := fits1 r.station && fits2 r.first && fits2 r.last && fits1 r.cls

/-- The fields of LOAD PARAMETER fit. -/
def ParameterReq.wf (r : ParameterReq) : Bool :=
  fits1 r.index && fits1 r.station && fits2 r.block && fits1 r.offset && fits1 r.width && fits1 r.kind && fits4 r.low
    && fits4 r.high && fitsOpt fits4 r.step && fitsOpt fits2 r.grain && fits1 r.mode
    && fitsOpt (fun b => fits1 b.1 && fits2 b.2) r.budget

/-- The fields of LOAD IMAGE fit. -/
def ImageReq.wf (r : ImageReq) : Bool := fits1 r.id && fits2 r.length

/-- The fields of LOAD IMAGE WORDS fit, and the body carries `count` words. -/
def ImageWordsReq.wf (r : ImageWordsReq) : Bool :=
  fits1 r.id && fits1 r.offset && fits1 r.count && decide (r.words.length = r.count)

/-- The fields of ADD AUDIT ENTRY fit. -/
def AuditReq.wf (r : AuditReq) : Bool :=
  fits1 r.station && fits2 r.block && fits2 r.length && fits1 r.mode && fitsOpt fits1 r.image

/-- The fields of LOAD RECIPE fit, and a name fills its field of 16 bytes. -/
def RecipeReq.wf (r : RecipeReq) : Bool := fits1 r.format && fitsOpt (fun nm => decide (List.length nm = 16)) r.name

/-- The fields of LOAD RECIPE BLOCK fit. -/
def RecipeBlockReq.wf (r : RecipeBlockReq) : Bool :=
  fits1 r.format && fits1 r.station && fits2 r.block && fits1 r.pass && fits1 r.image

/-- The fields of LOAD RECIPE VALUE fit. -/
def RecipeValueReq.wf (r : RecipeValueReq) : Bool := fits1 r.format && fits1 r.parameter

/-- The fields of DIRECT READ fit. -/
def DirectReadReq.wf (r : DirectReadReq) : Bool := fits1 r.station && fits2 r.block && fits1 r.offset && fits1 r.count

/-- The fields of CAPTURE fit. -/
def CaptureReq.wf (r : CaptureReq) : Bool := fits1 r.station && fits2 r.block && fits1 r.image

/-- A supervisor request's fields fit. -/
def SupRequest.wf : SupRequest → Bool
  | .setPortMap r => r.wf
  | .setStation r => r.wf
  | .setInput r => r.wf
  | .setTiming r => r.wf
  | .loadWindow r => r.wf
  | .loadParameter r => r.wf
  | .loadImage r => r.wf
  | .loadImageWords r => r.wf
  | .addAuditEntry r => r.wf
  | .loadRecipe r => r.wf
  | .loadRecipeBlock r => r.wf
  | .loadRecipeValue r => r.wf
  | .setActiveFormat n => fits1 n
  | .clearTables => true
  | .arm => true
  | .disarm => true
  | .lock => true
  | .restart => true
  | .status => true
  | .readStation n => fits1 n
  | .readParameter n => fits1 n
  | .readAuditEntry n => fits1 n
  | .takeEvents => true
  | .ackDrift n => fits1 n
  | .auditNow n => fits1 n
  | .releaseStation n => fits1 n
  | .directRead r => r.wf
  | .capture r => r.wf
  | .takeAccessResult n => fits1 n
  | .openChangeover n => fits1 n
  | .applyChangeover => true
  | .cancelChangeover => true
  | .revertChangeover => true
  | .closeChangeover => true
  | .restoreBlock n => fits1 n
  | .badRecord => true

/-- A tool's READ fits its fields. -/
def ToolReadReq.wf (r : ToolReadReq) : Bool := fits1 r.station && fits2 r.block && fits1 r.offset && fits1 r.count

/-- A tool's WRITE fits its fields, and the body carries `count` words. -/
def ToolWriteReq.wf (r : ToolWriteReq) : Bool :=
  fits1 r.station && fits2 r.block && fits1 r.offset && fits1 r.count && decide (r.words.length = r.count)

/-- A tool's request fits its fields; `bad` stands for no layout. -/
def ToolRequest.wf : ToolRequest → Bool
  | .list => true
  | .read r => r.wf
  | .write r => r.wf
  | .bad => false

/-- A body is short enough for a frame (R177). -/
def bodyFits (body : List Byte) : Bool := decide (body.length ≤ 200)

/-- A station's reply fits a frame; an ECHO REPLY carries 32 bytes (R179). -/
def StationReply.wf : StationReply → Bool
  | .identReply _ _ _ _ _ _ => true
  | .ack => true
  | .echoReply bytes => decide (bytes.length = 32)
  | .stateReply _ _ => true
  | .data words => decide (words.length ≤ 100)
  | .sumReply _ _ => true
  | .reject _ => true

/-- A command's operands are ones a frame or a terminal can carry. -/
def Instr.wf : Instr → Bool
  | .setPortMap _ r => r.wf
  | .setStation _ r => r.wf
  | .setInput _ r => r.wf
  | .setTiming _ r => r.wf
  | .loadWindow _ r => r.wf
  | .loadParameter _ r => r.wf
  | .loadImage _ r => r.wf
  | .loadImageWords _ r => r.wf
  | .addAuditEntry _ r => r.wf
  | .loadRecipe _ r => r.wf
  | .loadRecipeBlock _ r => r.wf
  | .loadRecipeValue _ r => r.wf
  | .setActiveFormat _ n => fits1 n
  | .readStation _ n => fits1 n
  | .readParameter _ n => fits1 n
  | .readAuditEntry _ n => fits1 n
  | .ackDrift _ n => fits1 n
  | .auditNow _ n => fits1 n
  | .releaseStation _ n => fits1 n
  | .directRead _ r => r.wf
  | .capture _ r => r.wf
  | .takeAccessResult _ n => fits1 n
  | .openChangeover _ n => fits1 n
  | .restoreBlock _ n => fits1 n
  | .badRecord _ _ body => bodyFits body
  | .requestHeld _ r => r.wf
  | .requestOverrun _ r => r.wf
  | .toolRead _ _ r => r.wf
  | .toolWrite _ _ r => r.wf
  | .badRequest _ _ _ body => bodyFits body
  | .echoReply _ _ bytes => decide (bytes.length = 32)
  | .dataReply _ _ words => decide (words.length ≤ 100)
  | .malformedReply _ _ _ body => bodyFits body
  | .strayFrame _ _ _ body => bodyFits body
  | .budgetWindowClose index => decide (index < 96)
  | .powerOn _ => true
  | .resetTerminal => true
  | .resetTerminalRelease _ => true
  | .guardTimeTick => true
  | .clearTables _ => true
  | .arm _ => true
  | .disarm _ => true
  | .lock _ => true
  | .restart _ _ => true
  | .status _ => true
  | .takeEvents _ => true
  | .applyChangeover _ => true
  | .cancelChangeover _ => true
  | .revertChangeover _ => true
  | .closeChangeover _ => true
  | .replyTransmitted => true
  | .frameCheckFailed _ _ => true
  | .interbyteGap _ _ => true
  | .frameLengthOverrange _ _ => true
  | .toolList _ _ => true
  | .presentAsserted _ => true
  | .presentDropped _ => true
  | .detachTimerExpiry _ => true
  | .portSettleExpiry _ => true
  | .strikeWindowExpiry _ => true
  | .lockoutExpiry _ => true
  | .identTimerExpiry _ => true
  | .trainingPauseExpiry _ => true
  | .pollIntervalExpiry _ => true
  | .identReply _ _ _ _ _ _ _ _ => true
  | .setRateAck _ _ => true
  | .stateReply _ _ _ _ => true
  | .writeAck _ _ => true
  | .sumReply _ _ _ _ => true
  | .rejectReply _ _ _ => true
  | .replyTimeout _ => true
  | .releaseSettleExpiry _ => true
  | .releaseLimitExpiry _ => true
  | .inhibitSenseChange _ _ => true
  | .inhibitFault _ => true
  | .inputRawChange _ _ => true
  | .inputDebounceExpiry _ => true
  | .auditPaceExpiry => true
  | .attentionHoldoffExpiry => true
  | .supplyRemoved => true
  | .resetTerminalAsserted => true

end Sys2Proof
end

