-- ==== Sys2Proof/Certificates/Slice0/Obligations.lean ====
section
/-! DEFINITION. The statements for the provers. Each says what the spec says of one command or of the whole guard; the
words they are made in stand in Sys2Proof/Safety.lean. Stations, ports, engineering ports and channels are numbered from
0 here (log entry 18). -/

open Sys2Proof Sys2Proof.Machine

/-! ### The step -/

/-- A step takes the command at the front of the queue and runs it on the state with the queue's rest. -/
def Obligations.StepTakesFrontCommand : Prop :=
  ∀ (c : Instr) (s : State), step { s with pending := c :: s.pending } = exec c s

/-- Every command answers a next state and leaves the queue of waiting commands as it was. -/
def Obligations.EveryCommandCompletes : Prop :=
  ∀ (c : Instr) (s : State), ∃ t, exec c s = .next t ∧ t.pending = s.pending

/-! ### Supply, reset, time -/

/-- R176, R175, R165, R39: power-on with the RESET terminal at rest, and the fall of the RESET level in a reset, start the
guard up with every block at its start values, one RESTARTED event, ATTENTION asserted and PERMIT deasserted. The RESET
level held for 20 ms takes a running guard into reset with cause TERMINAL, and removing the supply stops it; a guard
already in reset keeps its cause. The level's rise only begins the hold timing. The model's own readings in this: the
level sensed at a start-up is the jumper's asserted one (log entry 5); `moved` lists the jumpers found in another
position (log entry 6); power-on of a running guard starts it again (log entry 7); in reset and without supply every
block stands at its start values and the event queue is empty (log entry 8). -/
def Obligations.SupplyAndReset : Prop :=
  (∀ (moved : List (Port × Jumper)) (s : State), s.resetLevel = false →
    ∃ t, exec (.powerOn moved) s = .next t ∧ Started .power (moved.foldl (fun v m => v.set m.1 m.2) s.jumperField) s t)
  ∧ (∀ (moved : List (Port × Jumper)) (s : State) (cause : ResetCause), s.power = .inReset cause →
    ∃ t, exec (.resetTerminalRelease moved) s = .next t ∧ t.resetLevel = false
      ∧ Started cause (moved.foldl (fun v m => v.set m.1 m.2) s.jumperField) s t)
  ∧ (∀ (moved : List (Port × Jumper)) (s : State), s.resetLevel = true →
    ∃ t, exec (.powerOn moved) s = .next t ∧ t.power = .inReset .power ∧ t.attention = false ∧ t.permit = false)
  ∧ (∀ s : State, s.power = .running → ∃ t, exec .resetTerminal s = .next t ∧ Halted (.inReset .terminal) s t)
  ∧ (∀ (s : State) (cause : ResetCause), s.power = .inReset cause →
      exec .resetTerminal s = .next { s with resetLevel := true })
  ∧ (∀ s : State, ∃ t, exec .supplyRemoved s = .next t ∧ Halted .unpowered s t)
  ∧ (∀ s : State, s.resetLevel = false →
      exec .resetTerminalAsserted s = .next { s with resetLevel := true, resetHeld := 0 })

/-- R176, R39: a guard in reset or without supply sends nothing, answers nothing, posts no event and moves no inhibit
output, whatever arrives, until supply or the fall of the RESET level starts it. -/
def Obligations.HaltedGuardDoesNothing : Prop :=
  ∀ (c : Instr) (s t : State), s.power ≠ .running → (∀ moved, c ≠ .powerOn moved) →
    (∀ moved, c ≠ .resetTerminalRelease moved) → c ≠ .supplyRemoved → exec c s = .next t →
      t.power = s.power ∧ t.links = s.links ∧ t.stations = s.stations ∧ t.ports = s.ports ∧ t.sup = s.sup
        ∧ t.events = s.events ∧ (∀ e : EngId, (t.engp e).tx = (s.engp e).tx)

/-- R168, R65: each second guard time rises by one, and at 4,294,967,295 it stays; what is left of the second has run down
every timer, nothing expires, and nothing else changes. An idle step of a running guard is one millisecond, and a guard
that does not run idles unchanged (the model's choice, log entries 1, 2 and 3). A budget window closes at guard time
start + 60 × P, with its count and start; one second earlier it stays open. Closing posts no event and touches no other
parameter. -/
def Obligations.TimePasses : Prop :=
  (∀ s : State, s.power = .running → ∃ t, exec .guardTimeTick s = .next t
    ∧ (s.guardTime < 4294967295 → t.guardTime = s.guardTime + 1)
    ∧ (s.guardTime = 4294967295 → t.guardTime = 4294967295)
    ∧ (s.subSecond ≤ 1000 → t.subSecond = 0) ∧ RanDown (1000 - s.subSecond) s t)
  ∧ (∀ s : State, s.power = .running → s.pending = [] → ∃ t, step s = .next t
    ∧ t.guardTime = s.guardTime ∧ t.subSecond = s.subSecond + 1 ∧ RanDown 1 s t)
  ∧ (∀ s : State, s.power ≠ .running → s.pending = [] → step s = .next s)
  ∧ (∀ (k : Nat) (s : State) (p : Param) (most minutes start count : Nat), s.power = .running →
      tableGet s.params k = some p → p.budget = some (most, minutes) → p.window = some (start, count) →
      ∃ t, exec (.budgetWindowClose k) s = .next t ∧ { t with params := s.params } = s
        ∧ (∀ j, j ≠ k → tableGet t.params j = tableGet s.params j)
        ∧ (start + 60 * minutes ≤ s.guardTime → tableGet t.params k = some { p with window := none })
        ∧ (s.guardTime < start + 60 * minutes → tableGet t.params k = some p))

/-! ### Configuration requests -/

/-- R2, R4, R10, R31: an accepted port map takes each station it names to DOWN, and each other station that had a port
to DISABLED. A station it names has a fresh record and its first IDENT 1000 ms away; every output is asserted and every
monitor IDLE. A MAPPED map is the one given, and a SEQUENTIAL one numbers the enabled ports 1, 2, 3 and onward in
physical order (R1). The hypotheses on the old map and the ports are invariants of the guard (`SettingsInvariant`,
`ReleaseInvariant`). Nothing is asked of the operations under way on the links: the records are cleared when all of them
have ended. -/
def Obligations.PortMapApplied : Prop :=
  ∀ (tag : Byte) (r : PortMapReq) (s : State), s.configuring → PortMapOk s.portMap → ReleasesOk s →
    portMapInRange r = true → portMapConflict r = false →
    ∃ t, Answers (.setPortMap tag r) tag s (.ok .none) t
      ∧ (∀ p : Port, r.mode = 2 → t.portMap[p] = stationOf r.values[p])
      ∧ (∀ p : Port, r.mode = 1 → r.values[p] = 0 → t.portMap[p] = none)
      ∧ (∀ p : Port, r.mode = 1 → r.values[p] = 1 → t.portMap[p] =
          stationOf ((List.finRange 8).filter (fun q => decide (q ≤ p) && decide (r.values[q] = 1))).length)
      ∧ (∀ i : Station, t.mapped i = true → t.stn i = { StationRec.cleared t.activeFormat with state := .down }
          ∧ (t.link i).holder = some .bringUp ∧ (t.link i).identTimer = some 1000)
      ∧ (∀ i : Station, s.mapped i = true → t.mapped i = false → t.stn i = .cleared t.activeFormat)
      ∧ (∀ p : Port, (t.port p).driven = .asserted ∧ (t.port p).monitor = .idle)

/-- R3, R158: an accepted SET STATION replaces the station's whole roster entry, and a field outside its range is refused
RANGE. An accepted SET TIMING sets the six values, each brought into its range, and answers ADJUSTED with them if one
was replaced. -/
def Obligations.RosterAndTimingSet : Prop :=
  (∀ (tag : Byte) (r : StationReq) (s : State) (i : Station) (name : List Byte) (required : Bool) (cls : Cls),
    s.configuring → stationOf r.station = some i → nameOf 12 r.name = some name → secondOf r.required = some required →
    clsOf r.defaultClass = some cls → r.ceiling.getD 0 ≤ 4 → 5 ≤ r.replyTimeout → r.replyTimeout ≤ 250 →
    r.releaseSettle ≤ 200 →
      let e : RosterEntry :=
        { name := name, maker := r.maker, model := r.model, serial := r.serial, ceiling := r.ceiling,
          replyTimeout := r.replyTimeout, releaseSettle := r.releaseSettle, required := required, defaultClass := cls }
      Answers (.setStation tag r) tag s (.ok .none) { s with roster := s.roster.set i e })
  ∧ (∀ (tag : Byte) (r : StationReq) (s : State), s.configuring →
      (stationOf r.station = none ∨ nameOf 12 r.name = none ∨ secondOf r.required = none ∨ clsOf r.defaultClass = none
        ∨ 4 < r.ceiling.getD 0 ∨ r.replyTimeout < 5 ∨ 250 < r.replyTimeout ∨ 200 < r.releaseSettle) →
        Answers (.setStation tag r) tag s (.refused .range) s)
  ∧ (∀ (tag : Byte) (r u : Timing) (s : State), s.configuring →
      u = { pollInterval := min (max r.pollInterval 100) 10000, auditPace := min (max r.auditPace 50) 60000,
            strikeWindow := min (max r.strikeWindow 1) 600, strikeLimit := min (max r.strikeLimit 1) 15,
            lockout := min (max r.lockout 1) 3600, holdoff := min r.holdoff 1000 } →
        Answers (.setTiming tag r) tag s (if u = r then .ok .none else .adjusted (.timing u)) { s with timing := u })

/-- R34, R35: SET INPUT puts in force the permitted check time nearest to the one asked for, the larger of two equally
near, and the edge mode, and answers ADJUSTED when it replaced the time. A raw level already held that long is accepted
at once, with an INPUT_CHANGE if the new mode reports the edge (that the new mode decides is the model's reading, log
entry 15). -/
def Obligations.InputSet : Prop :=
  (∀ n : Nat, nearestCheckTime n ∈ [0, 2, 8, 32, 128, 512] ∧ ∀ v ∈ [0, 2, 8, 32, 128, 512],
    |(n : Int) - nearestCheckTime n| ≤ |(n : Int) - v|
      ∧ (|(n : Int) - nearestCheckTime n| = |(n : Int) - v| → v ≤ nearestCheckTime n))
  ∧ (∀ (tag : Byte) (r : InputReq) (s : State) (x : InputId) (m : EdgeMode) (ms : Nat), s.configuring →
      s.changeover.state = .idle → inputOf r.input = some x → edgeOf r.mode = some m → ms = nearestCheckTime r.checkTime →
      let rec0 := s.inputs.get x
      let answer : Response := if ms = r.checkTime then .ok .none else .adjusted (.checkTime ms)
      (rec0.raw = rec0.accepted ∨ rec0.hold < ms →
        Answers (.setInput tag r) tag s answer (s.setInput x { rec0 with checkTime := ms, mode := m }))
      ∧ (rec0.raw ≠ rec0.accepted → ms ≤ rec0.hold →
        let t := s.setInput x { rec0 with accepted := rec0.raw, checkTime := ms, mode := m }
        Answers (.setInput tag r) tag s answer
          (if m = .both ∨ (m = .rise ∧ rec0.raw = true) ∨ (m = .fall ∧ rec0.raw = false) then
            post (.input x) (.inputChange rec0.raw) t else t)))

/-- R40, R42: LOAD WINDOW adds its entry at the end of the table, or is refused RANGE, FULL or CONFLICT in that order with
the table as it was. A window added to the table gives its class to the blocks it covers and leaves the class of every
other block as it was, and a block that no window covers has its station's default class. -/
def Obligations.WindowsLoadAndClassify : Prop :=
  (∀ (tag : Byte) (r : WindowReq) (s : State) (i : Station) (c : Cls), s.configuring → stationOf r.station = some i →
    clsOf r.cls = some c → r.first ≤ r.last → r.last ≤ 1023 →
    let overlap := ∃ w ∈ s.windows, w.station = i ∧ w.first ≤ r.last ∧ r.first ≤ w.last
    (s.windows.length < 64 → ¬ overlap → Answers (.loadWindow tag r) tag s (.ok .none)
      { s with windows := s.windows ++ [{ station := i, first := r.first, last := r.last, cls := c }] })
    ∧ (64 ≤ s.windows.length → Answers (.loadWindow tag r) tag s (.refused .full) s)
    ∧ (s.windows.length < 64 → overlap → Answers (.loadWindow tag r) tag s (.refused .conflict) s))
  ∧ (∀ (tag : Byte) (r : WindowReq) (s : State), s.configuring →
      (stationOf r.station = none ∨ clsOf r.cls = none ∨ r.last < r.first ∨ 1023 < r.last) →
        Answers (.loadWindow tag r) tag s (.refused .range) s)
  ∧ (∀ (ws : List Window) (w : Window) (ro : Vector RosterEntry 8) (i : Station) (b : Nat), WindowsOk (ws ++ [w]) →
    classOf (ws ++ [w]) ro i b = if w.station = i ∧ w.first ≤ b ∧ b ≤ w.last then w.cls else classOf ws ro i b)
  ∧ (∀ (ws : List Window) (ro : Vector RosterEntry 8) (i : Station) (b : Nat),
      (∀ w ∈ ws, ¬ (w.station = i ∧ w.first ≤ b ∧ b ≤ w.last)) → classOf ws ro i b = ro[i].defaultClass)

/-- R53: LOAD PARAMETER loads the entry at its index with the default baseline in force and its budget window closed, if
the index is free and no loaded parameter has a word of it; else it is refused CONFLICT, and what gives no sound entry
RANGE. The fields that give one are those inside the ranges of R52 and R53, and each field is in the entry as given. -/
def Obligations.ParameterLoaded : Prop :=
  (∀ (tag : Byte) (r : ParameterReq) (s : State) (k : Nat) (p : Param), s.configuring → paramOf r = some (k, p) →
    tableGet s.params k = none → (∀ e ∈ s.params, e.2.sharesWord p = false) →
      k = r.index ∧ p.base = p.defaultBase ∧ p.window = none
        ∧ ∃ t, Answers (.loadParameter tag r) tag s (.ok .none) t ∧ tableGet t.params k = some p
          ∧ (∀ j, j ≠ k → tableGet t.params j = tableGet s.params j) ∧ { t with params := s.params } = s)
  ∧ (∀ (tag : Byte) (r : ParameterReq) (s : State) (k : Nat) (p : Param), s.configuring → paramOf r = some (k, p) →
      (tableGet s.params k ≠ none ∨ ∃ e ∈ s.params, e.2.sharesWord p = true) →
        Answers (.loadParameter tag r) tag s (.refused .conflict) s)
  ∧ (∀ (tag : Byte) (r : ParameterReq) (s : State), s.configuring → paramOf r = none →
      Answers (.loadParameter tag r) tag s (.refused .range) s)
  ∧ (∀ (tag : Byte) (r : ParameterReq) (s : State), s.configuring →
      (stationOf r.station = none ∨ secondOf r.width = none ∨ secondOf r.kind = none ∨ secondOf r.mode = none) →
        Answers (.loadParameter tag r) tag s (.refused .range) s)
  ∧ (∀ (tag : Byte) (r : ParameterReq) (s : State) (i : Station) (wide signed clamp : Bool), s.configuring →
      stationOf r.station = some i → secondOf r.width = some wide → secondOf r.kind = some signed →
      secondOf r.mode = some clamp →
      let g := r.grain.getD 1
      let top : Nat := if wide = true then 4294967295 else 65535
      let b := valueOf signed r.defaultBase
      let c := valueOf signed r.current
      let hmin := valueOf signed r.hmin
      let hmax := valueOf signed r.hmax
      let inRange : Prop := r.index ≤ 95 ∧ r.block ≤ 1023 ∧ r.offset + (if wide = true then 2 else 1) ≤ 256
        ∧ 1 ≤ g ∧ g ≤ 65535
        ∧ (∀ k minutes, r.budget = some (k, minutes) → 1 ≤ k ∧ k ≤ 255 ∧ 1 ≤ minutes ∧ minutes ≤ 1440)
        ∧ r.low ≤ top ∧ r.high ≤ top ∧ (∀ n, r.step = some n → n ≤ top)
        ∧ kindMin wide signed ≤ hmin ∧ hmin ≤ hmax ∧ hmax ≤ kindMax wide signed ∧ hmin ≤ b ∧ b ≤ hmax
        ∧ max (b - r.low) hmin ≤ c ∧ c ≤ min (b + r.high) hmax ∧ (g : Int) ∣ c - b
      (inRange → paramOf r = some (r.index,
        { station := i, block := r.block, offset := r.offset, wide := wide, signed := signed, hmin := hmin, hmax := hmax,
          defaultBase := b, base := b, current := c, low := r.low, high := r.high, step := r.step, grain := g,
          clamp := clamp, budget := r.budget, window := none }))
      ∧ (¬ inRange → Answers (.loadParameter tag r) tag s (.refused .range) s))

/-- R112, R113, R115: LOAD IMAGE opens an image behind the words reserved before it. LOAD IMAGE WORDS places a piece at
the image's filled count, and the piece that fills the image gives it its fingerprint; a piece elsewhere is refused
ORDER. -/
def Obligations.ImagesLoaded : Prop :=
  (∀ (tag : Byte) (r : ImageReq) (s : State), s.configuring → r.id < 160 → 1 ≤ r.length → r.length ≤ 256 →
    findImage s.images r.id = none → reservedWords s.images + r.length ≤ 32768 →
      Answers (.loadImage tag r) tag s (.ok .none) { s with images := s.images ++
        [{ id := r.id, length := r.length, position := reservedWords s.images, words := [], capture := none,
           print := none }] })
  ∧ (∀ (tag : Byte) (r : ImageWordsReq) (s : State) (before after : List Image) (im : Image), s.configuring →
      s.images = before ++ im :: after → (before ++ after).all (fun x => decide (x.id ≠ im.id)) = true → r.id = im.id →
      im.id < 160 → 1 ≤ r.count → r.count ≤ 64 → r.words.length = r.count → im.capture = none → r.offset ≤ 255 →
      (r.offset = im.words.length → r.offset + r.count ≤ im.length →
        Answers (.loadImageWords tag r) tag s (.ok .none) { s with images := before ++
          { im with
            words := im.words ++ r.words
            print := if r.offset + r.count = im.length then some (fingerprint (im.words ++ r.words)) else im.print }
          :: after })
      ∧ (r.offset ≠ im.words.length → Answers (.loadImageWords tag r) tag s (.refused .order) s)
      ∧ (r.offset = im.words.length → im.length < r.offset + r.count →
          Answers (.loadImageWords tag r) tag s (.refused .range) s))

/-- R117, R118: ADD AUDIT ENTRY adds an UNCHECKED entry at the end of the list, with no class and nothing expected until
ARM; a full list is refused FULL and a second entry for the block CONFLICT. -/
def Obligations.AuditEntryAdded : Prop :=
  ∀ (tag : Byte) (r : AuditReq) (s : State) (i : Station) (readMode : Bool), s.configuring →
    stationOf r.station = some i → secondOf r.mode = some readMode → r.block ≤ 1023 → 1 ≤ r.length → r.length ≤ 256 →
    r.image.getD 0 < 160 →
    let listed := ∃ e ∈ s.audit, e.station = i ∧ e.block = r.block
    (s.audit.length < 128 → ¬ listed → Answers (.addAuditEntry tag r) tag s (.ok .none)
      { s with audit := s.audit ++
        [{ station := i, block := r.block, length := r.length, readMode := readMode, image := r.image, cls := none,
           resolved := none, expected := none, state := .unchecked, lastCheck := none, lastOutcome := none,
           drift := none }] })
    ∧ (128 ≤ s.audit.length → Answers (.addAuditEntry tag r) tag s (.refused .full) s)
    ∧ (s.audit.length < 128 → listed → Answers (.addAuditEntry tag r) tag s (.refused .conflict) s)

/-- R134 to R136: LOAD RECIPE loads an empty recipe, with the name it gives or none, in place of any before; LOAD RECIPE
BLOCK and LOAD RECIPE VALUE add an item to it, the values kept by ascending parameter index; for a recipe not loaded both
are refused UNKNOWN, and so is a value of a parameter not loaded. -/
def Obligations.RecipesLoaded : Prop :=
  (∀ (tag : Byte) (r : RecipeReq) (s : State) (name : Option (List Byte)), s.configuring → 1 ≤ r.format →
    r.format ≤ 12 → (r.name = none ∧ name = none
      ∨ ∃ bytes chars, r.name = some bytes ∧ nameOf 16 bytes = some chars ∧ chars ≠ [] ∧ name = some chars) →
    ∃ t, Answers (.loadRecipe tag r) tag s (.ok .none) t ∧ { t with recipes := s.recipes } = s
      ∧ tableGet t.recipes r.format = some { name := name, blocks := [], values := [] }
      ∧ ∀ g, g ≠ r.format → tableGet t.recipes g = tableGet s.recipes g)
  ∧ (∀ (tag : Byte) (r : RecipeReq) (s : State), s.configuring →
      (r.format = 0 ∨ 12 < r.format ∨ ∃ bytes, r.name = some bytes ∧ nameOf 16 bytes = none) →
        Answers (.loadRecipe tag r) tag s (.refused .range) s)
  ∧ (∀ (tag : Byte) (r : RecipeBlockReq) (s : State) (i : Station) (rec : Recipe), s.configuring → 1 ≤ r.format →
      r.format ≤ 12 → stationOf r.station = some i → r.block ≤ 1023 → 1 ≤ r.pass → r.pass ≤ 3 → r.image < 160 →
      tableGet s.recipes r.format = some rec → rec.blocks.length < 48 → rec.blockAt i r.block = none →
      ∃ t, Answers (.loadRecipeBlock tag r) tag s (.ok .none) t ∧ { t with recipes := s.recipes } = s
        ∧ tableGet t.recipes r.format = some { rec with blocks := rec.blocks ++
            [{ station := i, block := r.block, pass := r.pass, image := r.image }] }
        ∧ ∀ g, g ≠ r.format → tableGet t.recipes g = tableGet s.recipes g)
  ∧ (∀ (tag : Byte) (r : RecipeValueReq) (s : State) (rec : Recipe) (p : Param), s.configuring → 1 ≤ r.format →
      r.format ≤ 12 → r.parameter < 96 → tableGet s.recipes r.format = some rec →
      tableGet s.params r.parameter = some p → rec.values.length < 96 → tableGet rec.values r.parameter = none →
      p.hmin ≤ valueOf p.signed r.value → valueOf p.signed r.value ≤ p.hmax →
      ∃ t rec', Answers (.loadRecipeValue tag r) tag s (.ok .none) t ∧ { t with recipes := s.recipes } = s
        ∧ tableGet t.recipes r.format = some rec' ∧ rec'.name = rec.name ∧ rec'.blocks = rec.blocks
        ∧ tableGet rec'.values r.parameter = some (valueOf p.signed r.value)
        ∧ (∀ j, j ≠ r.parameter → tableGet rec'.values j = tableGet rec.values j)
        ∧ rec'.values.length = rec.values.length + 1
        ∧ (rec.values.Pairwise (fun x y => x.1 < y.1) → rec'.values.Pairwise (fun x y => x.1 < y.1))
        ∧ ∀ g, g ≠ r.format → tableGet t.recipes g = tableGet s.recipes g)
  ∧ (∀ (tag : Byte) (r : RecipeBlockReq) (s : State) (it : RecipeBlock), s.configuring → recipeBlockOf r = some it →
      tableGet s.recipes r.format = none → Answers (.loadRecipeBlock tag r) tag s (.refused .unknown) s)
  ∧ (∀ (tag : Byte) (r : RecipeValueReq) (s : State), s.configuring → 1 ≤ r.format → r.format ≤ 12 →
      r.parameter < 96 → (tableGet s.recipes r.format = none ∨ tableGet s.params r.parameter = none) →
        Answers (.loadRecipeValue tag r) tag s (.refused .unknown) s)

/-- R137, R76, R138: with KEY at MAINT and the recipe loaded, SET ACTIVE FORMAT declares the format: every mapped
station's format state becomes it, each value of the recipe becomes its parameter's baseline with the budget window
closed, and current values stay. A current value fits when it lies in the band about the new baseline and a whole
number of grains from it; the first parameter of the recipe whose current value does not refuses it RANGE and is named.
-/
def Obligations.ActiveFormatDeclared : Prop :=
  ∀ (tag : Byte) (f : Nat) (s : State) (r : Recipe), s.configuring → s.keyMaint = true → 1 ≤ f → f ≤ 12 →
    tableGet s.recipes f = some r →
    let fits (k : Nat) (v : Int) : Prop := ∀ p, tableGet s.params k = some p →
      max (v - p.low) p.hmin ≤ p.current ∧ p.current ≤ min (v + p.high) p.hmax ∧ (p.grain : Int) ∣ p.current - v
    ((∀ x ∈ r.values, fits x.1 x.2) → ∃ t, Answers (.setActiveFormat tag f) tag s (.ok .none) t
      ∧ { t with activeFormat := s.activeFormat, params := s.params, stations := s.stations } = s
      ∧ t.activeFormat = f
      ∧ (∀ i : Station, t.stn i = if s.mapped i = true then { s.stn i with format := .fmt f } else s.stn i)
      ∧ (∀ k p, tableGet s.params k = some p → (∀ v, (k, v) ∉ r.values) → tableGet t.params k = some p)
      ∧ (∀ k p q, tableGet s.params k = some p → tableGet t.params k = some q → q.current = p.current)
      ∧ (r.values.Pairwise (fun a b => a.1 ≠ b.1) → ∀ k v p, (k, v) ∈ r.values → tableGet s.params k = some p →
          tableGet t.params k = some { p with base := v, window := none }))
    ∧ (∀ (before after : List (Nat × Int)) (k : Nat) (v : Int), r.values = before ++ (k, v) :: after →
        (∀ x ∈ before, fits x.1 x.2) → ¬ fits k v →
        Answers (.setActiveFormat tag f) tag s (.refusedAt .range (.of .parameter k)) s)

/-- R174: CLEAR TABLES empties every table and sets the active format to 0, and it keeps the port map, the roster, the
inputs, the timing values and the station records; while an image has a capture it is refused BUSY. -/
def Obligations.TablesCleared : Prop :=
  ∀ (tag : Byte) (s : State), s.configuring →
    ((∀ im ∈ s.images, im.capture = none) → Answers (.clearTables tag) tag s (.ok .none)
      { s with windows := [], params := [], images := [], audit := [], recipes := [], activeFormat := 0 })
    ∧ ((∃ im ∈ s.images, im.capture ≠ none) → Answers (.clearTables tag) tag s (.refused .busy) s)

/-! ### Stages -/

/-- R170, R171, R118, R119, R122: the four groups of checks of ARM. When all hold, ARM takes the guard to GUARDING: every
audit entry keeps its given fields and takes the class of its block, no last check, no last outcome and no drift record,
and becomes UNCHECKED, or NOT_APPLICABLE for a FORMAT block the active format does not name; a FIXED entry expects its
image's fingerprint, a TUNABLE one that of its image with current values in place of parameter words, a FORMAT one that
of its resolved image; every mapped station that is not MIXED takes the active format; the scheduler begins with an empty
queue, the cursor before entry 0, no check, and the pace timer running. The first check that fails refuses it RANGE and
names the item and the check (the numbers in the subject: log entry 34). -/
def Obligations.ArmGuards : Prop :=
  ∀ (tag : Byte) (s : State), s.configuring →
    let passes (n : Nat) (e : AuditEntry) : Prop := match n with
      | 1 => ∃ p : Port, s.portMap[p] = some e.station
      | 2 => s.classOf e.station e.block ≠ .free
      | 3 => s.classOf e.station e.block = .format ↔ e.image = none
      | 4 => ∀ id, e.image = some id →
          ∃ im, findImage s.images id = some im ∧ im.words.length = im.length ∧ im.length = e.length
      | _ => e.image = none → ∀ x ∈ s.recipes, ∀ it ∈ x.2.blocks, it.station = e.station → it.block = e.block →
          ∃ im, findImage s.images it.image = some im ∧ im.length = e.length
    let entryOk (e : AuditEntry) : Prop := ∀ n, 1 ≤ n → n ≤ 5 → passes n e
    let paramOk (p : Param) : Prop := s.classOf p.station p.block = .tunable
    let itemPasses (n : Nat) (it : RecipeBlock) : Prop := match n with
      | 1 => s.classOf it.station it.block = .format
      | _ => ∃ im, findImage s.images it.image = some im ∧ im.words.length = im.length
    let itemOk (it : RecipeBlock) : Prop := itemPasses 1 it ∧ itemPasses 2 it
    let activeOk : Prop := s.activeFormat = 0 ∨ tableGet s.recipes s.activeFormat ≠ none
    let refused (kind : SubjectKind) (number position check : Nat) : Prop := Answers (.arm tag) tag s
      (.refusedAt .range { kind := kind, number := number, position := position, check := check }) s
    ((∀ e ∈ s.audit, entryOk e) → (∀ x ∈ s.params, paramOk x.2) → (∀ x ∈ s.recipes, ∀ it ∈ x.2.blocks, itemOk it) →
      activeOk → ∃ t, Answers (.arm tag) tag s (.ok .none) t ∧ t.stage = .guarding
      ∧ t.sched = { check := none, paceTimer := some s.timing.auditPace, sweeps := [], cursor := none }
      ∧ t.audit.length = s.audit.length
      ∧ (∀ (k : Nat) (e : AuditEntry), s.audit[k]? = some e →
          let c := s.classOf e.station e.block
          let image := resolvedImage s.recipes s.activeFormat e.station e.block
          ∃ x : Option Fingerprint, t.audit[k]? = some
            { e with
              cls := some c
              resolved := if c = .format then image else none
              expected := x
              state := if c = .format ∧ image = none then .notApplicable else .unchecked
              lastCheck := none
              lastOutcome := none
              drift := none }
          ∧ (c = .fixed → x = e.image.bind (imagePrint s.images))
          ∧ (c = .format → x = image.bind (imagePrint s.images))
          ∧ (∀ id, c = .tunable → e.image = some id → ∃ words : List Word, x = some (fingerprint words)
              ∧ words.length = (imageWords s.images id).length
              ∧ ∀ (j : Nat) (w : Word), (imageWords s.images id)[j]? = some w → words[j]? = some
                  (match paramAt s.params e.station e.block j with
                   | some (_, p) => (p.encode p.current).getD (j - p.offset) w
                   | none => w)))
      ∧ (∀ i : Station, t.stn i = if s.mapped i = true ∧ (s.stn i).format ≠ .mixed then
          { s.stn i with format := .fmt s.activeFormat } else s.stn i)
      ∧ { t with stage := s.stage, audit := s.audit, sched := s.sched, stations := s.stations } = s)
    ∧ (∀ (k n : Nat) (e : AuditEntry), s.audit[k]? = some e → (∀ x ∈ s.audit.take k, entryOk x) → 1 ≤ n → n ≤ 5 →
        (∀ m, 1 ≤ m → m < n → passes m e) → ¬ passes n e → refused .auditEntry k 0 n)
    ∧ (∀ (before after : List (Nat × Param)) (k : Nat) (p : Param), (∀ e ∈ s.audit, entryOk e) →
        s.params = before ++ (k, p) :: after → (∀ x ∈ before, paramOk x.2) → ¬ paramOk p → refused .parameter k 0 1)
    ∧ (∀ (before after : List (Nat × Recipe)) (f n k : Nat) (r : Recipe) (it : RecipeBlock), (∀ e ∈ s.audit, entryOk e) →
        (∀ x ∈ s.params, paramOk x.2) → s.recipes = before ++ (f, r) :: after →
        (∀ x ∈ before, ∀ it ∈ x.2.blocks, itemOk it) → r.blocks[k]? = some it → (∀ x ∈ r.blocks.take k, itemOk x) →
        (n = 1 ∨ n = 2 ∧ itemPasses 1 it) → ¬ itemPasses n it → refused .recipeBlock f k n)
    ∧ ((∀ e ∈ s.audit, entryOk e) → (∀ x ∈ s.params, paramOk x.2) →
        (∀ x ∈ s.recipes, ∀ it ∈ x.2.blocks, itemOk it) → ¬ activeOk → refused .activeFormat s.activeFormat 0 1)

/-- R172, R118, R129, R110, R20: DISARM is refused LOCKED, STAGE, INTERLOCK or BUSY in that order. Accepted, it stops the
scheduler, returns every audit entry to its CONFIGURE values with its given fields kept, clears the sum-unreliable flags,
ends strikes and lockouts, and takes the guard to CONFIGURE, so PERMIT is deasserted; the rest stays. A check in progress
is abandoned: it leaves the arbiter of its station as holder or waiter, and a transaction of its in flight keeps the link
with nobody to take the result. -/
def Obligations.DisarmConfigures : Prop :=
  ∀ (tag : Byte) (s : State), s.taking →
    (s.locked = true → Answers (.disarm tag) tag s (.refused .locked) s)
    ∧ (s.locked = false → s.stage = .configure → Answers (.disarm tag) tag s (.refused .stage) s)
    ∧ (s.locked = false → s.stage = .guarding → s.keyMaint = false →
        Answers (.disarm tag) tag s (.refused .interlock) s)
    ∧ (s.locked = false → s.stage = .guarding → s.keyMaint = true →
        ((∃ i : Station, (s.stn i).slot ≠ none) ∨ s.changeover.state ≠ .idle) →
        Answers (.disarm tag) tag s (.refused .busy) s)
    ∧ (s.locked = false → s.stage = .guarding → s.keyMaint = true → (∀ i : Station, (s.stn i).slot = none) →
        s.changeover.state = .idle → (∀ c, s.sched.check = some c → (s.link c.station).inFlight ≠ none
          ∨ (s.link c.station).holder ≠ none ∧ (s.link c.station).holder ≠ some .audit) →
        ∃ t, Answers (.disarm tag) tag s (.ok .none) t
        ∧ t.stage = .configure ∧ t.permit = false
        ∧ t.sched = { check := none, paceTimer := none, sweeps := [], cursor := none }
        ∧ t.audit = s.audit.map (fun e =>
            { e with cls := none, resolved := none, expected := none, state := .unchecked, lastCheck := none,
                     lastOutcome := none, drift := none })
        ∧ (∀ i : Station, t.stn i = { s.stn i with sumUnreliable := false })
        ∧ (∀ x : EngId, t.engp x = { s.engp x with
            strikes := 0, strikeWindow := none, lockout := none,
            state := if (s.engp x).state = .lockedOut then .ready else (s.engp x).state })
        ∧ (s.sched.check = none → t.links = s.links)
        ∧ (∀ c, s.sched.check = some c → (∀ j : Station, j ≠ c.station → t.link j = s.link j)
            ∧ t.link c.station = { s.link c.station with
                holder := if (s.link c.station).holder = some .audit then none else (s.link c.station).holder
                waiters := (s.link c.station).waiters.filter (fun u => decide (u ≠ .audit))
                inFlight := (s.link c.station).inFlight.map (fun x =>
                  if x.owner = some .audit then { x with owner := none } else x) })
        ∧ { t with stage := s.stage, sched := s.sched, audit := s.audit, stations := s.stations, eng := s.eng,
                   links := s.links } = s)

/-- R173, R175: LOCK sets the lock flag in GUARDING, changes nothing else, and is refused STAGE in CONFIGURE. RESTART is
refused LOCKED while the flag is set; else it is answered OK, and when the last byte of its reply has been sent the guard
starts up with cause REQUEST, and a request held meanwhile is gone (that the guard works on until that byte is the
model's reading, log entry 9; `moved` lists the jumpers found in another position, log entry 6). -/
def Obligations.LockAndRestart : Prop :=
  (∀ (tag : Byte) (s : State), s.taking →
    (s.stage = .guarding → Answers (.lock tag) tag s (.ok .none) { s with locked := true })
    ∧ (s.stage = .configure → Answers (.lock tag) tag s (.refused .stage) s)
    ∧ (s.locked = true → Answers (.restart tag []) tag s (.refused .locked) s)
    ∧ (∀ moved : List (Port × Jumper), s.locked = false → Answers (.restart tag moved) tag s (.ok .none)
        { s with
          jumperField := moved.foldl (fun v m => v.set m.1 m.2) s.jumperField
          sup := { s.sup with restarting := true } }))
  ∧ (∀ (r : SupReply) (s : State), s.power = .running → s.sup.restarting = true → s.sup.answering = some r →
      ∃ t, exec .replyTransmitted s = .next t
        ∧ Started .request s.jumperField { s with sup := { s.sup with lastSent := some r } } t)

/-- R173, R111: while the lock flag is set, a configuration request, CAPTURE, DISARM or RESTART is refused LOCKED and
changes nothing. Nothing but the RESET terminal or a loss of supply changes the stage, the port map, the roster, the
check time and edge mode of an input, the timing values, the windows, the recipes or what was loaded of any parameter,
image or audit entry; an image that no channel is capturing keeps its words and its fingerprint; the flag stays set.
The premise is that RESTART's reply is not on its way, an invariant of the guard (`SettingsInvariant`). -/
def Obligations.LockHolds : Prop :=
  (∀ (tag : Byte) (q : SupRequest) (c : Instr) (s : State), s.taking → s.locked = true → lockable q = true →
      commandOf tag q = some c → Answers c tag s (.refused .locked) s)
  ∧ (∀ (c : Instr) (s t : State), RestartOk s → s.locked = true → exec c s = .next t → (∀ moved, c ≠ .powerOn moved) →
      c ≠ .resetTerminal → (∀ moved, c ≠ .resetTerminalRelease moved) → c ≠ .supplyRemoved →
        t.locked = true ∧ t.stage = s.stage ∧ t.portMap = s.portMap ∧ t.roster = s.roster ∧ t.timing = s.timing
          ∧ (∀ x : InputId, (t.inputs.get x).checkTime = (s.inputs.get x).checkTime
              ∧ (t.inputs.get x).mode = (s.inputs.get x).mode)
          ∧ t.windows = s.windows ∧ t.recipes = s.recipes
          ∧ t.params.map (fun e => (e.1, { e.2 with base := 0, current := 0, window := none }))
              = s.params.map (fun e => (e.1, { e.2 with base := 0, current := 0, window := none }))
          ∧ t.images.length = s.images.length
          ∧ (∀ (k : Nat) (im : Image), s.images[k]? = some im → ∃ im' : Image, t.images[k]? = some im' ∧ im'.id = im.id
              ∧ im'.length = im.length ∧ im'.position = im.position ∧ (im.capture = none → im' = im))
          ∧ t.audit.map (fun e => (e.station, e.block, e.length, e.readMode, e.image))
              = s.audit.map (fun e => (e.station, e.block, e.length, e.readMode, e.image)))

/-- R157 and every table of checks: a request answered REFUSED leaves the guard as it was. -/
def Obligations.RefusalChangesNothing : Prop :=
  ∀ (q : SupRequest) (s : State), (respond q s).1.status = .refused → (respond q s).2 = s

/-! ### Reading and taking -/

/-- R159, R5, R25, R55, R133: STATUS and the three READ requests answer with what the guard holds at that moment and
change nothing; a number out of range is refused RANGE, and an index that holds nothing UNKNOWN. In STATUS an unmapped
station shows DISABLED with the active format, and lockouts are in seconds rounded up (the model's readings, log entries
32 and 38). R38, R39: PERMIT is asserted if and only if the guard runs in GUARDING with the controller IDLE, every
required station ONLINE and not MIXED, and no audit entry of a required station in DRIFT. R37: cover posture holds while
the stage is GUARDING, COVER is accepted active and KEY is accepted at RUN. -/
def Obligations.ReportsChangeNothing : Prop :=
  (∀ (tag : Byte) (s : State), s.taking →
    Answers (.status tag) tag s (.ok (.status
      { guardTime := s.guardTime, stage := s.stage, locked := s.locked, activeFormat := s.activeFormat,
        permit := s.permit, attention := s.attention, key := s.inputs.key.accepted, lineRun := s.inputs.lineRun.accepted,
        cover := s.inputs.cover.accepted,
        stations := (List.finRange 8).map (fun i => if s.mapped i = true then ((s.stn i).state, (s.stn i).format)
          else (.disabled, .fmt s.activeFormat)),
        windows := s.windows.length, parameters := s.params.length, images := s.images.length,
        reserved := (s.images.map (fun im => im.length)).sum, entries := s.audit.length,
        drifted := s.audit.countP (fun e => decide (e.state = .drift)),
        sweeps := s.sched.sweeps.map (fun q => q.station),
        recipes := [1, 2, 3, 4, 5, 6, 7, 8, 9, 10, 11, 12].map (fun f => (tableGet s.recipes f).map (fun r =>
          (r.blocks.length, r.values.length))),
        chState := s.changeover.state, chKind := s.changeover.kind, chTarget := s.changeover.target,
        chStations := s.changeover.stations, chRestore := s.changeover.restoreEntry,
        chPosition := s.changeover.position.bind (fun k => (s.changeover.work[k]?).map (fun st => (st, k))),
        chFailure := s.changeover.failure,
        ports := (List.finRange 4).map (fun e => ((s.engp e).state, (s.engp e).strikes,
          (((s.engp e).lockout.getD 0) + 999) / 1000)),
        channels := (List.finRange 2).map (fun c => ((s.chan c).state, (s.chan c).work.map (fun w => w.kind))),
        events := s.events.length })) s
    ∧ (∀ (i : Station) (n : Nat), n = i.val + 1 → s.mapped i = true →
        Answers (.readStation tag n) tag s (.ok (.station s.roster[i] { s.stn i with slot := none }
          (s.stn i).slot.isSome (s.unprotected i) ((s.portOf i).map (fun p =>
            { jumper := (s.port p).jumper, driven := (s.port p).driven, holder := (s.port p).holder,
              fault := decide ((s.port p).monitor = .fault) })))) s)
    ∧ (∀ (k : Nat) (p : Param), k < 96 → tableGet s.params k = some p → p.openWindow s.guardTime = p.window →
        Answers (.readParameter tag k) tag s (.ok (.parameter p p.lo p.hi p.closes)) s)
    ∧ (∀ (k : Nat) (e : AuditEntry), k < 128 → s.audit[k]? = some e →
        Answers (.readAuditEntry tag k) tag s (.ok (.auditEntry e (s.checking k))) s)
    ∧ (∀ n : Nat, n = 0 ∨ 8 < n → Answers (.readStation tag n) tag s (.refused .range) s)
    ∧ (∀ k : Nat, 96 ≤ k → Answers (.readParameter tag k) tag s (.refused .range) s)
    ∧ (∀ k : Nat, k < 96 → tableGet s.params k = none → Answers (.readParameter tag k) tag s (.refused .unknown) s)
    ∧ (∀ k : Nat, 128 ≤ k → Answers (.readAuditEntry tag k) tag s (.refused .range) s)
    ∧ (∀ k : Nat, k < 128 → s.audit.length ≤ k → Answers (.readAuditEntry tag k) tag s (.refused .unknown) s))
  ∧ (∀ s : State, s.permit = true ↔ s.power = .running ∧ s.stage = .guarding ∧ s.changeover.state = .idle
      ∧ (∀ i : Station, s.roster[i].required = true → (s.stn i).state = .online ∧ (s.stn i).format ≠ .mixed)
      ∧ ∀ e ∈ s.audit, s.roster[e.station].required = true → e.state ≠ .drift)
  ∧ (∀ s : State, s.coverPosture = true ↔
      s.stage = .guarding ∧ s.inputs.cover.accepted = true ∧ s.inputs.key.accepted = false)

/-- R166, R167: TAKE EVENTS removes the first eight events, or all when there are fewer, and answers with them. Emptying
a queue whose ATTENTION was asserted starts the holdoff, and while it runs ATTENTION is deasserted; at its expiry
ATTENTION is asserted exactly when the queue is not empty. R165: an event whose source and kind no waiting event has joins
the queue at its end with count 1 and both times those of its posting; one with the source and kind of a waiting event is
gathered into it, where it stands: its count rises by one up to 255, its first time stays, and its latest time and detail
are the new ones. -/
def Obligations.EventsTaken : Prop :=
  (∀ (tag : Byte) (s : State), s.taking → ∃ t, Answers (.takeEvents tag) tag s (.ok (.events (s.events.take 8))) t
    ∧ t.events = s.events.drop 8 ∧ { t with events := s.events, holdoff := s.holdoff } = s
    ∧ (s.events.length ≤ 8 → s.attention = true → 0 < s.timing.holdoff → t.holdoff = some s.timing.holdoff)
    ∧ (s.attention = false ∨ 8 < s.events.length → t.holdoff = s.holdoff))
  ∧ (∀ s : State, s.holdoff ≠ none → s.attention = false)
  ∧ (∀ s : State, s.power = .running → ∃ t, exec .attentionHoldoffExpiry s = .next t ∧ { t with holdoff := s.holdoff } = s
      ∧ (t.attention = true ↔ s.events ≠ []))
  ∧ (∀ (now : Nat) (src : Source) (d : Detail) (es : List Event),
      let same (e : Event) : Prop := e.source = src ∧ e.detail.kind = d.kind
      ((∀ e ∈ es, ¬ same e) → postEvent now src d es
        = es ++ [{ source := src, detail := d, first := now, last := now, count := 1 }])
      ∧ (∀ (before after : List Event) (e : Event), es = before ++ e :: after → same e → (∀ x ∈ before, ¬ same x) →
          postEvent now src d es
            = before ++ { e with last := now, detail := d, count := min 255 (e.count + 1) } :: after))

/-- R132, R133, R123: ACK DRIFT removes the drift record and makes the entry UNCHECKED, or NOT_APPLICABLE for a FORMAT
entry without an image, keeping its last check; an entry not in DRIFT is refused UNKNOWN. AUDIT NOW puts an ONLINE
station in the sweep queue, at its end, once. -/
def Obligations.DriftAndSweeps : Prop :=
  (∀ (tag : Byte) (k : Nat) (e : AuditEntry) (s : State), s.taking → k < 128 → s.audit[k]? = some e →
    (e.state = .drift → ∃ t, Answers (.ackDrift tag k) tag s (.ok .none) t ∧ { t with audit := s.audit } = s
      ∧ t.audit[k]? = some { e with
          drift := none
          state := if e.cls = some .format ∧ e.resolved = none then .notApplicable else .unchecked }
      ∧ (∀ j, j ≠ k → t.audit[j]? = s.audit[j]?))
    ∧ (e.state ≠ .drift → Answers (.ackDrift tag k) tag s (.refused .unknown) s))
  ∧ (∀ (tag : Byte) (i : Station) (n : Nat) (s : State), s.taking → s.stage = .guarding → n = i.val + 1 →
      ((s.stn i).state = .online → (∀ q ∈ s.sched.sweeps, q.station ≠ i) →
        Answers (.auditNow tag n) tag s (.ok .none) { s with sched := { s.sched with
          sweeps := s.sched.sweeps ++ [{ station := i, started := false, again := false, taken := none }] } })
      ∧ ((s.stn i).state = .online → (∃ q ∈ s.sched.sweeps, q.station = i) → ∃ qs : List Sweep,
          qs.map (fun q => q.station) = s.sched.sweeps.map (fun q => q.station)
            ∧ Answers (.auditNow tag n) tag s (.ok .none) { s with sched := { s.sched with sweeps := qs } })
      ∧ ((s.stn i).state ≠ .online → Answers (.auditNow tag n) tag s (.refused .unknown) s))
  ∧ (∀ (tag : Byte) (n : Nat) (s : State), s.taking → s.stage = .configure → 1 ≤ n → n ≤ 8 →
      Answers (.auditNow tag n) tag s (.refused .stage) s)

/-- R22: with KEY at MAINT, RELEASE STATION takes a QUARANTINED station to DOWN: the FAULT of its port is cleared, the
reason and the mode are absent, the counter is uncertain, the missed count and the rate are 0, and bring-up starts. It
is refused INTERLOCK without KEY, and UNKNOWN for a station that is not QUARANTINED. -/
def Obligations.QuarantineReleased : Prop :=
  ∀ (tag : Byte) (i : Station) (n : Nat) (s : State), s.taking → n = i.val + 1 →
    (s.keyMaint = true → (s.stn i).state = .quarantined → (s.link i).waiters = [] → (s.link i).holder = none →
      PortMapOk s.portMap → ReleasesOk s →
      ∃ t, Answers (.releaseStation tag n) tag s (.ok .none) t
        ∧ t.stn i = { s.stn i with state := .down, reason := none, missed := 0, mode := none, uncertain := true, rate := 0 }
        ∧ (t.link i).holder = some .bringUp ∧ (t.link i).identTimer = some 1000
        ∧ (∀ p : Port, s.portMap[p] = some i → (t.port p).monitor = .idle ∧ (t.port p).driven = .asserted)
        ∧ t.events = s.events ∧ t.audit = s.audit ∧ ∀ j : Station, j ≠ i → t.stn j = s.stn j ∧ t.link j = s.link j)
    ∧ (s.keyMaint = false → Answers (.releaseStation tag n) tag s (.refused .interlock) s)
    ∧ (s.keyMaint = true → (s.stn i).state ≠ .quarantined → Answers (.releaseStation tag n) tag s (.refused .unknown) s)

/-- R161 to R164: on an idle link DIRECT READ and CAPTURE take the lowest free channel and send their first READ at once,
of as many words as one frame of the station carries; a capture marks its image. TAKE ACCESS RESULT answers with a
finished channel's work and frees it; a channel that is not DONE is refused UNKNOWN. -/
def Obligations.AccessChannels : Prop :=
  (∀ (tag : Byte) (r : DirectReadReq) (s : State) (i : Station) (c : ChanId), s.taking → stationOf r.station = some i →
    r.block ≤ 1023 → r.offset ≤ 255 → 1 ≤ r.count → r.count ≤ 64 → r.offset + r.count ≤ 256 →
    (s.stn i).state = .online → (s.link i).holder = none → (s.link i).waiters = [] → (s.link i).inFlight = none →
    (s.chan c).state = .free → (c = 0 ∨ (s.chan 0).state ≠ .free) →
    let w : AccessWork :=
      { kind := .directRead, station := i, block := r.block, offset := r.offset, count := r.count, image := none,
        got := [], result := none }
    ∃ t, Answers (.directRead tag r) tag s (.ok (.channel c)) t ∧ t.chan c = { state := .running, work := some w }
      ∧ (t.link i).holder = some (.access c) ∧ (t.link i).inFlight = some
          { seq := (s.stn i).nextSeq, request := .read r.block r.offset (min (s.stn i).wordsPerFrame r.count),
            owner := some (.access c), timeout := s.roster[i].replyTimeout }
      ∧ SameBut i s { t with channels := s.channels } ∧ t.events = s.events)
  ∧ (∀ (tag : Byte) (r : CaptureReq) (s : State) (i : Station) (c : ChanId) (im : Image), s.configuring →
      stationOf r.station = some i → r.block ≤ 1023 → r.image < 160 → findImage s.images r.image = some im →
      im.words = [] → im.capture = none → (s.stn i).state = .online → (s.link i).holder = none →
      (s.link i).waiters = [] → (s.link i).inFlight = none → (s.chan c).state = .free →
      (c = 0 ∨ (s.chan 0).state ≠ .free) →
      ∃ t, Answers (.capture tag r) tag s (.ok (.channel c)) t ∧ (t.chan c).state = .running
        ∧ findImage t.images r.image = some { im with capture := some c }
        ∧ (t.link i).inFlight = some
          { seq := (s.stn i).nextSeq, request := .read r.block 0 (min (s.stn i).wordsPerFrame im.length),
            owner := some (.access c), timeout := s.roster[i].replyTimeout }
        ∧ SameBut i s { t with channels := s.channels, images := s.images })
  ∧ (∀ (tag : Byte) (c : ChanId) (n : Nat) (w : AccessWork) (s : State), s.taking → n = c.val + 1 →
      s.chan c = { state := .done, work := some w } →
      Answers (.takeAccessResult tag n) tag s (.ok (.access w)) (s.setChan c { state := .free, work := none }))
  ∧ (∀ (tag : Byte) (c : ChanId) (n : Nat) (s : State), s.taking → n = c.val + 1 → (s.chan c).state ≠ .done →
      Answers (.takeAccessResult tag n) tag s (.refused .unknown) s)

/-! ### Changeovers -/

/-- R140 to R142, R121: from IDLE in GUARDING, with KEY at MAINT, LINE_RUN inactive, and every station of the recipe
ONLINE, in STOP or FAULT and without a tool operation, OPEN CHANGEOVER opens on the recipe's stations, those of its
blocks and those of its values' parameters, in ascending order, and answers with them. It holds them: with no check in
progress every audit entry of theirs that is not in DRIFT becomes SUSPENDED, and PERMIT is deasserted. -/
def Obligations.ChangeoverOpened : Prop :=
  ∀ (tag : Byte) (f : Nat) (s : State) (r : Recipe) (S : List Station), s.taking → s.stage = .guarding →
    s.changeover.state = .idle → 1 ≤ f → f ≤ 12 → tableGet s.recipes f = some r →
    ¬ (r.blocks = [] ∧ r.values = []) → S.Pairwise (fun i j => i < j) →
    (∀ i : Station, i ∈ S ↔ (∃ it ∈ r.blocks, it.station = i)
      ∨ ∃ x ∈ r.values, ∃ p, tableGet s.params x.1 = some p ∧ p.station = i) →
    (s.inputs.key.accepted = true → s.inputs.lineRun.accepted = false →
      (∀ i ∈ S, (s.stn i).state = .online ∧ ((s.stn i).mode = some .stop ∨ (s.stn i).mode = some .fault)
        ∧ (s.stn i).slot = none) → s.sched.check = none →
      ∃ t, Answers (.openChangeover tag f) tag s (.ok (.stations S)) t
        ∧ t.changeover = { Changeover.idle with
            state := .opened, kind := some .changeover, target := some f, stations := S }
        ∧ t.audit = s.audit.map (fun e => if e.station ∈ S ∧ e.state ≠ .drift then { e with state := .suspended } else e)
        ∧ t.permit = false ∧ { t with changeover := s.changeover, audit := s.audit } = s)
    ∧ ((s.inputs.key.accepted = false ∨ s.inputs.lineRun.accepted = true) →
        Answers (.openChangeover tag f) tag s (.refused .interlock) s)

/-- R140, R144, R145, R152: with the interlock satisfied, APPLY of an open changeover, and REVERT of a failed one
towards the active format, build the work list of the recipe on the stations held: the blocks of pass 1, then of 2,
then of 3, each station by station in recipe order, then for each station with values one step with all of them. The
controller is placed for its first step. On an idle link it takes the link at once and asks the station for its STATE.
A revert with nothing to write succeeds at once. -/
def Obligations.ChangeoverApplied : Prop :=
  let blocks (r : Recipe) (S : List Station) (n : Nat) : List Step := (S.map (fun i =>
    (r.blocks.filter (fun it => decide (it.station = i) && decide (it.pass = n))).map (fun it =>
      Step.block i it.block it.pass it.image))).flatten
  let values (s : State) (r : Recipe) (i : Station) : List (Nat × Int) := r.values.filter (fun x =>
    match tableGet s.params x.1 with
    | some p => decide (p.station = i)
    | none => false)
  let work (s : State) (r : Recipe) : List Step :=
    blocks r s.changeover.stations 1 ++ blocks r s.changeover.stations 2 ++ blocks r s.changeover.stations 3
      ++ (s.changeover.stations.filter (fun i => decide (values s r i ≠ []))).map (fun i => Step.values i (values s r i))
  (∀ (tag : Byte) (s : State) (w : Step) (ws : List Step) (r : Recipe), s.taking → s.stage = .guarding →
    s.changeover.state = .opened → s.inputs.key.accepted = true → s.inputs.lineRun.accepted = false →
    (∀ i ∈ s.changeover.stations, (s.stn i).state = .online
      ∧ ((s.stn i).mode = some .stop ∨ (s.stn i).mode = some .fault)) →
    tableGet s.recipes (s.changeover.target.getD 0) = some r → work s r = w :: ws →
    (s.stn w.station).state = .online → (s.link w.station).holder = none → (s.link w.station).waiters = [] →
    (s.link w.station).inFlight = none →
    ∃ t, Answers (.applyChangeover tag) tag s (.ok .none) t ∧ t.changeover.state = .applying
      ∧ t.changeover.work = w :: ws ∧ t.changeover.position = some 0 ∧ t.changeover.phase = .checking
      ∧ t.changeover.stations = s.changeover.stations ∧ t.changeover.target = s.changeover.target
      ∧ (t.link w.station).holder = some .changeover ∧ (t.link w.station).inFlight = some
          { seq := (s.stn w.station).nextSeq, request := .state, owner := some .changeover,
            timeout := s.roster[w.station].replyTimeout }
      ∧ SameBut w.station s { t with changeover := s.changeover } ∧ t.events = s.events)
  ∧ (∀ (tag : Byte) (s : State) (w : Step) (ws : List Step) (r : Recipe), s.taking → s.stage = .guarding →
    s.changeover.state = .failed → s.activeFormat ≠ 0 → s.inputs.key.accepted = true →
    s.inputs.lineRun.accepted = false → (∀ i ∈ s.changeover.stations, (s.stn i).state = .online
      ∧ ((s.stn i).mode = some .stop ∨ (s.stn i).mode = some .fault)) →
    tableGet s.recipes s.activeFormat = some r → work s r = w :: ws →
    (s.stn w.station).state = .online → (s.link w.station).holder = none → (s.link w.station).waiters = [] →
    (s.link w.station).inFlight = none →
    ∃ t, Answers (.revertChangeover tag) tag s (.ok .none) t ∧ t.changeover.state = .applying
      ∧ t.changeover.kind = some .revert ∧ t.changeover.target = some s.activeFormat ∧ t.changeover.failure = none
      ∧ t.changeover.work = w :: ws ∧ t.changeover.position = some 0
      ∧ (t.link w.station).holder = some .changeover ∧ (t.link w.station).inFlight = some
          { seq := (s.stn w.station).nextSeq, request := .state, owner := some .changeover,
            timeout := s.roster[w.station].replyTimeout }
      ∧ SameBut w.station s { t with changeover := s.changeover } ∧ t.events = s.events)
  ∧ (∀ (tag : Byte) (s : State) (r : Recipe), s.taking → s.stage = .guarding → s.changeover.state = .failed →
      s.activeFormat ≠ 0 → s.inputs.key.accepted = true → s.inputs.lineRun.accepted = false →
      (∀ i ∈ s.changeover.stations, (s.stn i).state = .online
        ∧ ((s.stn i).mode = some .stop ∨ (s.stn i).mode = some .fault)) →
      tableGet s.recipes s.activeFormat = some r → work s r = [] →
      ∃ t, Answers (.revertChangeover tag) tag s (.ok .none) t ∧ t.changeover = .idle ∧ t.params = s.params
        ∧ (∀ i ∈ s.changeover.stations, (t.stn i).format = .fmt s.activeFormat)
        ∧ t.events = postEvent s.guardTime .controller (.operationDone .revert .reverted s.activeFormat none) s.events)
  ∧ (∀ (tag : Byte) (s : State), s.taking → s.stage = .guarding → s.changeover.state = .failed → s.activeFormat = 0 →
      Answers (.revertChangeover tag) tag s (.refused .unknown) s)

/-- R140, R143, R152, R121: CANCEL of an open changeover and CLOSE of a failed one return the controller to IDLE and
end the hold: a SUSPENDED entry of a held station becomes UNCHECKED with last check and last outcome absent, a FORMAT
entry is resolved again against the active format, and every other entry and field stays; format states stay. In IDLE
both are refused UNKNOWN, at work both BUSY. R147, R148, R151: a REJECT or NO_REPLY of the step's own transaction, and
a readback that differs, fail the changeover or revert at work: the release is returned and the link given up, the
failure record names the cause and the step, the stations held become MIXED, the state is FAILED, OPERATION_DONE is
posted, and the hold, the active format, the entries and the parameters stay. (Which value a value step names when none
is being written: log entry 39.) R154: a REJECT or NO_REPLY of a restore's own transaction, and a readback that
differs, with the lowest offset that does, end the restore: the release is returned and the link given up, the hold
ends, the entries are released and keep their drift records, format states and parameters stay, the controller is IDLE,
and OPERATION_DONE is posted with FAILED. -/
def Obligations.HoldEnds : Prop :=
  (∀ (tag : Byte) (s : State), s.taking → s.stage = .guarding → ∃ t,
    (s.changeover.state = .opened → Answers (.cancelChangeover tag) tag s (.ok .none) t)
    ∧ (s.changeover.state = .failed → Answers (.closeChangeover tag) tag s (.ok .none) t)
    ∧ t.changeover = .idle ∧ { t with changeover := s.changeover, audit := s.audit } = s
    ∧ t.audit.length = s.audit.length
    ∧ (∀ (k : Nat) (e : AuditEntry), s.audit[k]? = some e →
        let image := resolvedImage s.recipes s.activeFormat e.station e.block
        let woken : AuditEntry := if e.state = .suspended then
          { e with state := .unchecked, lastCheck := none, lastOutcome := none } else e
        (e.station ∉ s.changeover.stations → t.audit[k]? = some e)
        ∧ (e.station ∈ s.changeover.stations → e.cls ≠ some .format → t.audit[k]? = some woken)
        ∧ (∀ id, e.station ∈ s.changeover.stations → e.cls = some .format → image = some id → t.audit[k]? = some
            { woken with
              resolved := some id
              expected := imagePrint s.images id
              state := if e.state = .suspended ∨ e.state = .notApplicable then .unchecked else e.state })
        ∧ (e.station ∈ s.changeover.stations → e.cls = some .format → image = none → t.audit[k]? = some
            { woken with
              resolved := none
              expected := none
              state := if e.state = .drift then .drift else .notApplicable })))
  ∧ (∀ (tag : Byte) (s : State), s.taking → s.stage = .guarding →
      (s.changeover.state = .idle → Answers (.cancelChangeover tag) tag s (.refused .unknown) s
        ∧ Answers (.closeChangeover tag) tag s (.refused .unknown) s)
      ∧ (s.changeover.state = .applying ∨ s.changeover.state = .verifying →
          Answers (.cancelChangeover tag) tag s (.refused .busy) s
            ∧ Answers (.closeChangeover tag) tag s (.refused .busy) s))
  ∧ (∀ (i : Station) (seq : Byte) (q : StationRequest) (st : Step) (kind : ChKind) (s : State),
      Alone s i seq q .changeover → (s.stn i).state = .online →
      (s.changeover.state = .applying ∨ s.changeover.state = .verifying) → s.changeover.step = some st →
      st.station = i → s.changeover.kind = some kind → kind ≠ .restore → s.changeover.stop = none →
      let item : Option FailItem := match st with
        | .values _ items => (items[s.changeover.done]?).map (fun x => .parameter x.1)
        | .block _ b _ _ => some (.block b)
        | .restore _ b _ => some (.block b)
      let pass : Option Nat := match st with
        | .block _ _ n _ => some n
        | _ => none
      let fails (c : Instr) (cause : Cause) (seen : Option Seen) : Prop :=
        let f : Failure := { cause := cause, station := some i, item := item, pass := pass, seen := seen }
        ∃ t, exec c s = .next t
          ∧ t.changeover = { s.changeover with
              state := .failed, failure := some f, work := [], position := none, phase := .waiting, done := 0, got := [] }
          ∧ (∀ j ∈ s.changeover.stations, (t.stn j).format = .mixed)
          ∧ (∀ j, j ∉ s.changeover.stations → (t.stn j).format = (s.stn j).format)
          ∧ (t.link i).holder = none ∧ (t.link i).inFlight = none
          ∧ (∀ p : Port, s.portOf i = some p → (t.port p).holder ≠ some .changeover)
          ∧ t.activeFormat = s.activeFormat ∧ t.params = s.params ∧ t.audit = s.audit
          ∧ t.events = postEvent s.guardTime .controller
              (.operationDone kind .failed (s.changeover.target.getD 0) (some f)) s.events
      (∀ (reason : Byte) (why : RejectReason), rejectOf reason = some why →
        fails (.rejectReply i seq reason) (.reject why) none)
      ∧ ((s.stn i).missed < 2 → fails (.replyTimeout i) .noReply none)
      ∧ (∀ (b o n block pass' im : Nat) (ws : List Word), s.changeover.state = .verifying → q = .read b o n →
          ws.length = n → st = .block i block pass' im →
          (imageWords s.images im).length ≤ s.changeover.done + n →
          imagePrint s.images im ≠ some (fingerprint (s.changeover.got ++ ws)) →
          fails (.dataReply i seq ws) .mismatch (some (.print (fingerprint (s.changeover.got ++ ws)))))
      ∧ (∀ (b o n key : Nat) (v : Int) (p : Param) (items : List (Nat × Int)) (ws : List Word),
          s.changeover.state = .verifying → q = .read b o n → ws.length = n → st = .values i items →
          items[s.changeover.done]? = some (key, v) → tableGet s.params key = some p → ws ≠ p.encode v →
          fails (.dataReply i seq ws) .mismatch (some (.words ws))))
  ∧ (∀ (i : Station) (seq : Byte) (q : StationRequest) (block k : Nat) (words : List Word) (s : State),
      Alone s i seq q .changeover → (s.stn i).state = .online →
      (s.changeover.state = .applying ∨ s.changeover.state = .verifying) →
      s.changeover.step = some (.restore i block words) → s.changeover.kind = some .restore →
      s.changeover.restoreEntry = some k → s.changeover.stop = none →
      let fails (c : Instr) (cause : Cause) (seen : Option Seen) : Prop :=
        ∃ t, exec c s = .next t ∧ t.changeover = .idle ∧ (t.link i).holder = none ∧ (t.link i).inFlight = none
          ∧ (∀ p : Port, s.portOf i = some p → (t.port p).holder ≠ some .changeover)
          ∧ (∀ j : Station, (t.stn j).format = (s.stn j).format) ∧ t.activeFormat = s.activeFormat
          ∧ t.params = s.params ∧ t.sched = s.sched ∧ t.audit.length = s.audit.length
          ∧ (∀ (m : Nat) (e : AuditEntry), s.audit[m]? = some e →
              EntryReleased s.changeover.stations s.activeFormat false [] s t m e)
          ∧ t.events = postEvent s.guardTime .controller (.operationDone .restore .failed k (some
              { cause := cause, station := some i, item := some (.block block), pass := none, seen := seen })) s.events
      (∀ (reason : Byte) (why : RejectReason), rejectOf reason = some why →
        fails (.rejectReply i seq reason) (.reject why) none)
      ∧ ((s.stn i).missed < 2 → fails (.replyTimeout i) .noReply none)
      ∧ (∀ (b o n d : Nat) (ws : List Word) (x y : Word), s.changeover.state = .verifying → q = .read b o n →
          ws.length = n → words.length ≤ s.changeover.done + n →
          (s.changeover.got ++ ws).take d = words.take d → words[d]? = some x → (s.changeover.got ++ ws)[d]? = some y →
          x ≠ y → fails (.dataReply i seq ws) .mismatch (some (.offset d))))

/-- R140, R153, R154, R119: RESTORE BLOCK of an entry of an ONLINE station without a tool operation, in IDLE with the
interlock satisfied and no check in progress, holds the station and begins its one step with the restore words, fixed
at this moment: the image of a FIXED entry, the resolved image of a FORMAT entry, and for a TUNABLE entry the image
with every parameter word replaced by the encoded current value. On an idle link STATE is asked for at once. An index
that holds no entry, an entry NOT_APPLICABLE, and a FORMAT entry in DRIFT without a resolved image are refused UNKNOWN;
then the inputs and the station not ONLINE INTERLOCK; then an occupied slot BUSY. -/
def Obligations.RestoreBegun : Prop :=
  (∀ (tag : Byte) (k : Nat) (e : AuditEntry) (s : State), s.taking → s.stage = .guarding →
    s.changeover.state = .idle → k < 128 → s.audit[k]? = some e →
    let nothing : Prop := e.state = .notApplicable ∨ e.cls = some .format ∧ e.state = .drift ∧ e.resolved = none
    let inputs : Prop := s.inputs.key.accepted = true ∧ s.inputs.lineRun.accepted = false
    (¬ nothing → inputs → (s.stn e.station).state = .online → (s.stn e.station).slot = none → s.sched.check = none →
      (s.link e.station).holder = none → (s.link e.station).waiters = [] → (s.link e.station).inFlight = none →
      ∃ t words, Answers (.restoreBlock tag k) tag s (.ok .none) t
        ∧ t.changeover = { Changeover.idle with
            state := .applying
            kind := some .restore
            stations := [e.station]
            restoreEntry := some k
            work := [.restore e.station e.block words]
            position := some 0
            phase := .checking }
        ∧ (∀ id, e.cls = some .fixed → e.image = some id → words = imageWords s.images id)
        ∧ (∀ id, e.cls = some .format → e.resolved = some id → words = imageWords s.images id)
        ∧ (∀ id, e.cls = some .tunable → e.image = some id → words.length = (imageWords s.images id).length
            ∧ ∀ (j : Nat) (w : Word), (imageWords s.images id)[j]? = some w → words[j]? = some
                (match paramAt s.params e.station e.block j with
                 | some (_, p) => (p.encode p.current).getD (j - p.offset) w
                 | none => w))
        ∧ (t.link e.station).holder = some .changeover
        ∧ (t.link e.station).inFlight = some
          { seq := (s.stn e.station).nextSeq, request := .state, owner := some .changeover,
            timeout := s.roster[e.station].replyTimeout }
        ∧ t.audit = s.audit.map (fun x =>
            if x.station = e.station ∧ x.state ≠ .drift then { x with state := .suspended } else x)
        ∧ SameBut e.station s { t with changeover := s.changeover, audit := s.audit } ∧ t.events = s.events)
    ∧ (nothing → Answers (.restoreBlock tag k) tag s (.refused .unknown) s)
    ∧ (¬ nothing → ¬ inputs ∨ (s.stn e.station).state ≠ .online →
        Answers (.restoreBlock tag k) tag s (.refused .interlock) s)
    ∧ (¬ nothing → inputs → (s.stn e.station).state = .online → (s.stn e.station).slot ≠ none →
        Answers (.restoreBlock tag k) tag s (.refused .busy) s))
  ∧ (∀ (tag : Byte) (k : Nat) (s : State), s.taking → s.stage = .guarding → s.changeover.state = .idle → k < 128 →
      s.audit[k]? = none → Answers (.restoreBlock tag k) tag s (.refused .unknown) s)

/-! ### The supervisor link and the receivers -/

/-- R156, R157: a frame that is no well-formed request is answered BAD_RECORD. A request that arrives while a reply is
being sent is held; one that arrives while another is held is discarded and sets the overrun flag. When the last byte of
a reply other than an accepted RESTART's has gone, the link is idle, or the held request is taken at once. R101, R156, R7,
R178: a frame whose check bytes are wrong changes nothing; a frame whose length byte is above 200 is abandoned at that
byte; a gap of more than 5 ms abandons the frame in assembly on that link and changes nothing else, and the bytes after it
begin afresh. None is answered, and each leaves the receiver between frames. -/
def Obligations.SupervisorLinkHolds : Prop :=
  (∀ (tag kind : Byte) (body : List Byte) (s : State), s.taking → parseRequest kind body = .badRecord →
    Answers (.badRecord tag kind body) tag s (.refused .badRecord) s)
  ∧ (∀ (tag : Byte) (q : SupRequest) (r : SupReply) (s : State), s.power = .running → s.sup.answering = some r →
      (s.sup.held = none →
        exec (.requestHeld tag q) s = .next { s with sup := { s.sup with held := some (tag, q) } })
      ∧ (s.sup.held ≠ none → exec (.requestOverrun tag q) s = .next { s with sup := { s.sup with overrun := true } }))
  ∧ (∀ (r : SupReply) (s : State), s.power = .running → s.sup.answering = some r → s.sup.restarting = false →
      (s.sup.held = none → exec .replyTransmitted s = .next
        { s with sup := { s.sup with answering := none, lastSent := some r } })
      ∧ (∀ (tag : Byte) (q : SupRequest) (c : Instr), s.sup.held = some (tag, q) → commandOf tag q = some c →
          exec .replyTransmitted s = exec c
            { s with sup := { s.sup with answering := none, held := none, lastSent := some r } }))
  ∧ (∀ (l : LinkId) (f : Frame) (c1 c2 : Byte) (s : State), s.power = .running → s.listens l = true → s.rxOf l = [] →
    f.body.length ≤ 200 → (c1, c2) ≠ checkBytes f.covered →
      exec (.frameCheckFailed l (0xC3#8 :: (f.covered ++ [c1, c2]))) s = .next s)
  ∧ (∀ (l : LinkId) (kind tag len : Byte) (s : State), s.power = .running → s.listens l = true → s.rxOf l = [] →
      200 < len.toNat → exec (.frameLengthOverrange l [0xC3#8, kind, tag, len]) s = .next s)
  ∧ (∀ (l : LinkId) (bytes : List Byte) (s : State), s.power = .running →
      exec (.interbyteGap l bytes) s = .next (feed l bytes (setRx l [] s)) ∧ (setRx l [] s).rxOf l = []
        ∧ (s.rxOf l = [] → setRx l [] s = s) ∧ setRx l (s.rxOf l) (setRx l [] s) = s)

/-- R177, R178: the bytes of a frame that arrive one after another on a listening link between frames are taken as that
frame, whatever its body, and leave the receiver between frames. -/
def Obligations.FrameTakenWhole : Prop :=
  ∀ (l : LinkId) (f : Frame) (s : State), s.power = .running → s.listens l = true → s.rxOf l = [] →
    f.body.length ≤ 200 → feed l f.bytes s = takeFrame l f s

/-- R179, R181, R182, R184: a well-formed body of each kind of request of the supervisor, of a tool and of reply of a
station is read back as what it was written from, with every field at every value its bytes admit. -/
def Obligations.BodiesRoundTrip : Prop :=
  (∀ q : SupRequest, q.wf = true → q ≠ .badRecord → parseRequest (SupRequest.kind q) (SupRequest.body q) = q)
  ∧ (∀ q : ToolRequest, q.wf = true → parseTool (ToolRequest.kind q) (ToolRequest.body q) = q)
  ∧ (∀ r : StationReply, r.wf = true → parseReply (StationReply.kind r) (StationReply.body r) = some r)

/-! ### Engineering ports -/

/-- R102 to R105, R101: in READY, LIST is answered with the stage and one item for each mapped station, in ascending
order, and a frame that is no well-formed request BAD_REQUEST; in WAITING every frame is answered BUSY, and in LOCKED_OUT
with the whole seconds that remain, at least 1; a DETACHED or SETTLING port takes none. No strike, and nothing but the
port's transmitter changes. (That a reply occupies the transmitter for its line time is the model's choice, log entry
10.) -/
def Obligations.ToolFramesAnswered : Prop :=
  ∀ (e : EngId) (tag kind : Byte) (body : List Byte) (r : ToolReadReq) (w : ToolWriteReq) (s : State),
    s.power = .running →
    let item (i : Station) : ListItem :=
      { number := i.val + 1, name := s.roster[i].name, state := (s.stn i).state, format := (s.stn i).format,
        unprotected := s.unprotected i }
    let every (t : State) : Prop :=
      exec (.toolList e tag) s = .next t ∧ exec (.badRequest e tag kind body) s = .next t
        ∧ exec (.toolRead e tag r) s = .next t ∧ exec (.toolWrite e tag w) s = .next t
    ((s.engp e).state = .ready → exec (.toolList e tag) s = .next (sendTool e tag
        (.list Config.modelCode Config.designRevision s.stage (((List.finRange 8).filter s.mapped).map item)) s))
    ∧ ((s.engp e).state = .ready → parseTool kind body = .bad →
        exec (.badRequest e tag kind body) s = .next (sendTool e tag .badRequest s))
    ∧ ((s.engp e).state = .ready →
        (stationOf r.station = none ∨ 1023 < r.block ∨ r.count = 0 ∨ 64 < r.count ∨ 256 < r.offset + r.count) →
        exec (.toolRead e tag r) s = .next (sendTool e tag .badRequest s))
    ∧ ((s.engp e).state = .ready →
        (stationOf w.station = none ∨ 1023 < w.block ∨ w.count = 0 ∨ 32 < w.count ∨ 256 < w.offset + w.count
          ∨ w.words.length ≠ w.count) →
        exec (.toolWrite e tag w) s = .next (sendTool e tag .badRequest s))
    ∧ ((s.engp e).state = .waiting → every (sendTool e tag .busy s))
    ∧ (∀ ms : Nat, (s.engp e).state = .lockedOut → (s.engp e).lockout = some ms →
        every (sendTool e tag (.lockedOut (max 1 ((ms + 999) / 1000))) s))
    ∧ ((s.engp e).state = .detached ∨ (s.engp e).state = .settling → every s)

/-- R50, R94, R102: a well-formed READ of an ONLINE station with an empty slot fills the slot, the port waits for it, and
on an idle link the first READ goes out, of as many words as a frame of the station carries; on an occupied one the
operation waits. An occupied slot answers BUSY, a QUARANTINED station QUARANTINED, one that is neither NOT_READY, and the
port stays READY. -/
def Obligations.ToolReadAdmitted : Prop :=
  ∀ (e : EngId) (tag : Byte) (r : ToolReadReq) (s : State) (i : Station), s.power = .running →
    (s.engp e).state = .ready → stationOf r.station = some i → r.block ≤ 1023 → 1 ≤ r.count → r.count ≤ 64 →
    r.offset + r.count ≤ 256 →
    ((s.stn i).state = .online → (s.stn i).slot = none → (s.link i).holder = none → (s.link i).waiters = [] →
      (s.link i).inFlight = none →
      ∃ t op, exec (.toolRead e tag r) s = .next t ∧ (t.engp e).state = .waiting ∧ (t.engp e).awaited = some i
        ∧ (t.stn i).slot = some op ∧ op.write = false ∧ op.port = e ∧ op.tag = tag ∧ op.block = r.block
        ∧ op.offset = r.offset ∧ op.count = r.count ∧ (t.link i).holder = some .tool ∧ (t.link i).inFlight = some
          { seq := (s.stn i).nextSeq, request := .read r.block r.offset (min (s.stn i).wordsPerFrame r.count),
            owner := some .tool, timeout := s.roster[i].replyTimeout }
        ∧ SameBut i s { t with eng := s.eng } ∧ t.events = s.events)
    ∧ ((s.stn i).state = .online → (s.stn i).slot = none → ((s.link i).holder ≠ none ∨ (s.link i).inFlight ≠ none) →
      ∃ t op, exec (.toolRead e tag r) s = .next t ∧ (t.engp e).state = .waiting ∧ (t.engp e).awaited = some i
        ∧ (t.stn i).slot = some op ∧ op.write = false ∧ op.port = e ∧ op.tag = tag ∧ op.phase = .waitingForLink
        ∧ t.link i = { s.link i with waiters := (s.link i).waiters ++ [.tool] }
        ∧ SameBut i s { t with eng := s.eng } ∧ t.events = s.events)
    ∧ ((s.stn i).state = .online → (s.stn i).slot ≠ none →
        exec (.toolRead e tag r) s = .next (sendTool e tag .busy s))
    ∧ ((s.stn i).state = .quarantined → exec (.toolRead e tag r) s = .next (sendTool e tag .quarantined s))
    ∧ ((s.stn i).state ≠ .online → (s.stn i).state ≠ .quarantined →
        exec (.toolRead e tag r) s = .next (sendTool e tag .notReady s))

/-- R47, R49, R79, R26, R69: a well-formed WRITE to an ONLINE station in GUARDING that is neither MIXED nor held, with the
cover posture off and an empty slot, is admitted. On a FREE block the words are taken as they are; on a TUNABLE block
what the judgement forwards; on a port whose jumper is NONE the first WRITE goes out at once, and on another port the
output is released first, under a limit of 1500 ms and the station's settle time; on an occupied link it waits. A judgement without change is answered
NO_CHANGE with nothing sent. -/
def Obligations.ToolWriteAdmitted : Prop :=
  ∀ (e : EngId) (tag : Byte) (r : ToolWriteReq) (s : State) (i : Station) (p : Port) (ws : List Word) (adjusted : Bool)
    (changes : List (Nat × Int)), s.power = .running → (s.engp e).state = .ready → stationOf r.station = some i →
    r.block ≤ 1023 → 1 ≤ r.count → r.count ≤ 32 → r.offset + r.count ≤ 256 → r.words.length = r.count →
    s.stage = .guarding → (s.stn i).state = .online → (s.stn i).format ≠ .mixed → s.held i = false →
    s.coverPosture = false → (s.stn i).slot = none → s.portOf i = some p → (s.port p).monitor ≠ .fault →
    (s.port p).holder = none →
    let admitted : Prop := (s.classOf i r.block = .free ∧ ws = r.words ∧ adjusted = false ∧ changes = [])
      ∨ (s.classOf i r.block = .tunable
        ∧ judge s.params i r.block r.offset r.words s.guardTime = .forward ws adjusted changes)
    (admitted → (s.link i).holder = none → (s.link i).waiters = [] → (s.link i).inFlight = none →
      ∃ t op, exec (.toolWrite e tag r) s = .next t ∧ (t.engp e).state = .waiting ∧ (t.engp e).awaited = some i
        ∧ (t.stn i).slot = some op ∧ op.write = true ∧ op.words = ws ∧ op.adjusted = adjusted ∧ op.changes = changes
        ∧ op.readBack = decide (s.classOf i r.block = .tunable) ∧ op.acked = 0 ∧ (t.link i).holder = some .tool
        ∧ ((s.port p).jumper = .none → (t.link i).inFlight = some
            { seq := (s.stn i).nextSeq, request := .write r.block r.offset (ws.take (min (s.stn i).wordsPerFrame ws.length)),
              owner := some .tool, timeout := s.roster[i].replyTimeout })
        ∧ ((s.port p).jumper ≠ .none → (t.port p).driven = .released ∧ (t.port p).holder = some (.tool i)
            ∧ (t.port p).limitTimer = some 1500
            ∧ (0 < s.roster[i].releaseSettle → (t.port p).settleTimer = some s.roster[i].releaseSettle
                ∧ (t.link i).inFlight = none))
        ∧ SameBut i s { t with eng := s.eng, ports := s.ports } ∧ t.events = s.events)
    ∧ (admitted → ((s.link i).holder ≠ none ∨ (s.link i).inFlight ≠ none) →
      ∃ t op, exec (.toolWrite e tag r) s = .next t ∧ (t.engp e).state = .waiting ∧ (t.engp e).awaited = some i
        ∧ (t.stn i).slot = some op ∧ op.write = true ∧ op.words = ws ∧ op.phase = .waitingForLink ∧ op.acked = 0
        ∧ t.link i = { s.link i with waiters := (s.link i).waiters ++ [.tool] }
        ∧ SameBut i s { t with eng := s.eng } ∧ t.events = s.events)
    ∧ (s.classOf i r.block = .tunable → judge s.params i r.block r.offset r.words s.guardTime = .noChange ws →
        exec (.toolWrite e tag r) s = .next (sendTool e tag (.noChange r.block r.offset ws) s))

/-- R47: the refusals of an inadmissible WRITE in their order: NOT_READY in CONFIGURE and off the line, QUARANTINED,
MIXED, CHANGEOVER, COVER, BUSY. None is a strike, and nothing but the port's transmitter changes. -/
def Obligations.ToolWriteRefusals : Prop :=
  ∀ (e : EngId) (tag : Byte) (r : ToolWriteReq) (s : State) (i : Station), s.power = .running →
    (s.engp e).state = .ready → stationOf r.station = some i → r.block ≤ 1023 → 1 ≤ r.count → r.count ≤ 32 →
    r.offset + r.count ≤ 256 → r.words.length = r.count →
    let answered (a : ToolReply) : Prop := exec (.toolWrite e tag r) s = .next (sendTool e tag a s)
    (s.stage = .configure → answered .notReady)
    ∧ (s.stage = .guarding →
      ((s.stn i).state ≠ .online → (s.stn i).state ≠ .quarantined → answered .notReady)
      ∧ ((s.stn i).state = .quarantined → answered .quarantined)
      ∧ ((s.stn i).state = .online → (s.stn i).format = .mixed → answered .mixed)
      ∧ ((s.stn i).state = .online → (s.stn i).format ≠ .mixed → s.held i = true → answered .changeover)
      ∧ ((s.stn i).state = .online → (s.stn i).format ≠ .mixed → s.held i = false → s.coverPosture = true →
          answered .cover)
      ∧ ((s.stn i).state = .online → (s.stn i).format ≠ .mixed → s.held i = false → s.coverPosture = false →
          (s.stn i).slot ≠ none → answered .busy))

/-- R43, R44, R106, R107: an admitted WRITE to a FIXED or FORMAT block is refused with its class, a REFUSAL is posted, and
it is a strike: the strike window opens unless it is open, and the count rises. The strike that reaches the limit locks
the port out: the lockout runs, the count returns to 0, and a LOCKOUT follows the REFUSAL. A WRITE to a TUNABLE block that
its judgement refuses is a strike in the same way, with the judgement's reason and offset. R56, R57, R67 to R70: that
judgement over the whole write. The lowest offset that belongs to no loaded parameter refuses it UNGUARDED; else the lowest
offset of a parameter of two words that is not wholly inside refuses it SPLIT; else the lowest parameter whose verdict is a
refusal refuses it with that reason. Else every parameter's words encode its accepted value, or its current one where the
verdict moves nothing; NO_CHANGE when none moves, and otherwise a forward that is adjusted when a verdict is CLAMPED or
HELD, with a change list of each parameter that moves and its accepted value. The tables are in order (`SettingsInvariant`).
-/
def Obligations.PolicyRefusalStrikes : Prop :=
  (∀ (e : EngId) (tag : Byte) (r : ToolWriteReq) (s : State) (i : Station) (why : Policy) (o : Nat), s.power = .running →
    (s.engp e).state = .ready → stationOf r.station = some i → r.block ≤ 1023 → 1 ≤ r.count → r.count ≤ 32 →
    r.offset + r.count ≤ 256 → r.words.length = r.count → s.stage = .guarding → (s.stn i).state = .online →
    (s.stn i).format ≠ .mixed → s.held i = false → s.coverPosture = false → (s.stn i).slot = none →
    (s.classOf i r.block = .fixed ∧ why = .fixed ∧ o = 0 ∨ s.classOf i r.block = .format ∧ why = .format ∧ o = 0
      ∨ s.classOf i r.block = .tunable
        ∧ judge s.params i r.block r.offset r.words s.guardTime = .refuse why o) →
    let s1 := post (.engineering e) (.refusal why i r.block) (sendTool e tag (.policy why o) s)
    ((s.engp e).strikes + 1 < s.timing.strikeLimit → exec (.toolWrite e tag r) s = .next (s1.modEng e (fun p =>
      { p with
        strikes := p.strikes + 1
        strikeWindow := some (p.strikeWindow.getD (1000 * s.timing.strikeWindow)) })))
    ∧ (s.timing.strikeLimit ≤ (s.engp e).strikes + 1 → exec (.toolWrite e tag r) s = .next
        (post (.engineering e) (.lockout s.timing.lockout why) (s1.modEng e (fun p =>
          { p with
            state := .lockedOut
            lockout := some (1000 * s.timing.lockout)
            strikes := 0
            strikeWindow := none })))))
  ∧ (∀ (ps : List (Nat × Param)) (i : Station) (b o : Nat) (ws : List Word) (now : Nat), ParamsOk ps →
      let owns (x : Nat × Param) (w : Nat) : Prop :=
        x ∈ ps ∧ x.2.station = i ∧ x.2.block = b ∧ (x.2.offset = w ∨ (x.2.wide = true ∧ x.2.offset + 1 = w))
      let inside (w : Nat) : Prop := o ≤ w ∧ w < o + ws.length
      let bare (w : Nat) : Prop := inside w ∧ ∀ x, ¬ owns x w
      let cut (w : Nat) : Prop := inside w ∧ ∃ x, owns x w ∧ x.2.wide = true
        ∧ (x.2.offset < o ∨ o + ws.length ≤ x.2.offset + 1)
      let judged (x : Nat × Param) : Prop := owns x x.2.offset ∧ inside x.2.offset
      let verdict (x : Nat × Param) : Verdict :=
        x.2.verdict (x.2.decode (ws.getD (x.2.offset - o) 0) (ws.getD (x.2.offset - o + 1) 0)) now
      (∀ w, bare w → (∀ u, u < w → ¬ bare u) → judge ps i b o ws now = .refuse .unguarded w)
      ∧ (∀ w, (∀ u, ¬ bare u) → cut w → (∀ u, u < w → ¬ cut u) → judge ps i b o ws now = .refuse .split w)
      ∧ (∀ x why, (∀ u, ¬ bare u ∧ ¬ cut u) → judged x → verdict x = .refused why →
          (∀ y other, judged y → y.2.offset < x.2.offset → verdict y ≠ .refused other) →
          judge ps i b o ws now = .refuse why x.2.offset)
      ∧ ((∀ u, ¬ bare u ∧ ¬ cut u) → (∀ x why, judged x → verdict x ≠ .refused why) →
          ∃ (accepted : List Word) (adjusted : Bool) (changes : List (Nat × Int)), accepted.length = ws.length
            ∧ (∀ x, judged x → (accepted.drop (x.2.offset - o)).take (if x.2.wide = true then 2 else 1) =
                x.2.encode ((verdict x).value x.2.current))
            ∧ (adjusted = true ↔ ∃ x a, judged x ∧ (verdict x = .clamped a ∨ verdict x = .held))
            ∧ (∀ k a, (k, a) ∈ changes ↔ ∃ p, judged (k, p) ∧ (verdict (k, p) = .pass a ∨ verdict (k, p) = .clamped a))
            ∧ changes.Pairwise (fun c d => c.1 ≠ d.1)
            ∧ judge ps i b o ws now = if changes = [] then .noChange accepted else .forward accepted adjusted changes))

/-- R99, R100, R105, R108, R109: PRESENT asserted on a DETACHED port takes it to SETTLING for 2000 ms, counts the
attachment and posts ATTACHED with the seconds of lockout that remain. A drop of PRESENT starts the detach timer at 50 ms,
and its return stops it with the port as it was. At the end of settling a port is READY, or LOCKED_OUT while its lockout
runs; the detach timer takes it to DETACHED, posts DETACHED and keeps strikes and lockout; the strike window's end empties
the count; the lockout's end takes a LOCKED_OUT port to READY and leaves any other state. -/
def Obligations.PortAttachmentAndTimers : Prop :=
  ∀ (e : EngId) (s : State), s.power = .running →
    ((s.engp e).present = false → (s.engp e).state = .detached → exec (.presentAsserted e) s = .next
      (post (.engineering e) (.attached (((s.engp e).lockout.getD 0 + 999) / 1000)) (s.modEng e (fun p =>
        { p with
          present := true
          state := .settling
          attachment := p.attachment + 1
          settleTimer := some 2000 }))))
    ∧ ((s.engp e).present = true → (s.engp e).state ≠ .detached → exec (.presentDropped e) s = .next
        (s.modEng e (fun p => { p with present := false, detachTimer := some 50 })))
    ∧ ((s.engp e).present = false → (s.engp e).state ≠ .detached → exec (.presentAsserted e) s = .next
        (s.modEng e (fun p => { p with present := true, detachTimer := none })))
    ∧ ((s.engp e).settleTimer ≠ none → (s.engp e).state = .settling → exec (.portSettleExpiry e) s = .next
      (s.modEng e (fun p =>
        { p with settleTimer := none, state := if p.lockout = none then .ready else .lockedOut })))
    ∧ ((s.engp e).detachTimer ≠ none → exec (.detachTimerExpiry e) s = .next
        (post (.engineering e) (.detached (s.engp e).state (s.engp e).awaited.isSome) (s.modEng e (fun p =>
          { p with
            state := .detached
            settleTimer := none
            detachTimer := none
            awaited := none
            tx := []
            rx := [] }))))
    ∧ ((s.engp e).strikeWindow ≠ none → exec (.strikeWindowExpiry e) s = .next
        (s.modEng e (fun p => { p with strikes := 0, strikeWindow := none })))
    ∧ ((s.engp e).lockout ≠ none → exec (.lockoutExpiry e) s = .next (s.modEng e (fun p =>
        { p with lockout := none, state := if p.state = .lockedOut then .ready else p.state })))

/-! ### Stations: bring-up and polling -/

/-- R10, R12, R13, R15, R19: on a link with nothing in flight, the IDENT timer of a station in DOWN sends IDENT; the pause
after a failed training step begins the next lower rate with SET RATE, or at rate 0 with ECHO; and the poll timer of an
ONLINE station sends STATE at once when nobody holds the link. -/
def Obligations.LinkTimersExpire : Prop :=
  ∀ (i : Station) (s : State), s.power = .running → (s.link i).inFlight = none →
    let sent (q : StationRequest) (u : LinkUser) : Transaction :=
      { seq := (s.stn i).nextSeq, request := q, owner := some u, timeout := s.roster[i].replyTimeout }
    ((s.stn i).state = .down → (s.link i).identTimer ≠ none → exec (.identTimerExpiry i) s = .next
      ((s.modStn i (fun r => { r with nextSeq := r.nextSeq + 1#8 })).modLink i (fun l =>
        { l with identTimer := none, inFlight := some (sent .ident .bringUp) })))
    ∧ (∀ first rate ms : Nat, (s.stn i).state = .training →
        (s.link i).training = some { first := first, rate := rate + 1, phase := .pause ms } →
        let again : Training := { first := first, rate := rate, phase := if rate = 0 then .echo 0 else .setRate }
        exec (.trainingPauseExpiry i) s = .next
          ((s.modStn i (fun r => { r with nextSeq := r.nextSeq + 1#8 })).modLink i (fun l =>
            { l with
              training := some again
              inFlight := some (sent (if rate = 0 then .echo else .setRate rate) .bringUp) })))
    ∧ ((s.stn i).state = .online → (s.link i).pollTimer ≠ none → (s.link i).holder = none → (s.link i).waiters = [] →
        exec (.pollIntervalExpiry i) s = .next
          ((s.modStn i (fun r => { r with nextSeq := r.nextSeq + 1#8 })).modLink i (fun l =>
            { l with pollTimer := none, holder := some .presence, inFlight := some (sent .state .presence) })))

/-- R11, R12, R21, R31: an IDENT REPLY in DOWN is recorded. With the identity the roster expects, on a port not in FAULT, the
station goes to TRAINING at the lower of its highest rate, the roster's ceiling and 4, and the first step is sent. With
another identity it is QUARANTINED with reason IDENTITY; on a port in FAULT, whatever its identity, with reason INHIBIT, and
the FAULT stays. QUARANTINED is posted and its STATE is asked for. -/
def Obligations.IdentReplyTaken : Prop :=
  ∀ (i : Station) (seq : Byte) (mk md fw : Word) (sn : BitVec 32) (hi wf : Byte) (s : State),
    Alone s i seq .ident .bringUp → (s.stn i).state = .down → (s.link i).training = none → 16 ≤ wf.toNat →
    let rate := min 4 (min hi.toNat (s.roster[i].ceiling.getD 4))
    let first : StationRequest := if rate = 0 then .echo else .setRate rate
    let sent (q : StationRequest) (u : LinkUser) : Transaction :=
      { seq := (s.stn i).nextSeq, request := q, owner := some u, timeout := s.roster[i].replyTimeout }
    let fault : Prop := ∃ p : Port, s.portOf i = some p ∧ (s.port p).monitor = .fault
    let expected : Prop := (∀ x, s.roster[i].maker = some x → x = mk) ∧ (∀ x, s.roster[i].model = some x → x = md)
      ∧ ∀ x, s.roster[i].serial = some x → x = sn
    ∃ t, exec (.identReply i seq mk md fw sn hi wf) s = .next t
      ∧ (t.stn i).maker = some mk ∧ (t.stn i).model = some md ∧ (t.stn i).firmware = some fw
      ∧ (t.stn i).serial = some sn ∧ (t.stn i).highest = some hi.toNat ∧ (t.stn i).wordsPerFrame = min 64 wf.toNat
      ∧ SameBut i s { t with ports := s.ports }
      ∧ (¬ fault → expected → (t.stn i).state = .training ∧ t.events = s.events
          ∧ (t.link i).inFlight = some (sent first .bringUp)
          ∧ ∃ ph, (t.link i).training = some { first := rate, rate := rate, phase := ph })
      ∧ (∀ why : QReason, fault ∧ why = .inhibit ∨ ¬ fault ∧ ¬ expected ∧ why = .identity →
          (t.stn i).state = .quarantined ∧ (t.stn i).reason = some why ∧ (t.stn i).uncertain = true
          ∧ t.events = postEvent s.guardTime (.station i) (.quarantined why) s.events
          ∧ (t.link i).holder = some .presence ∧ (t.link i).inFlight = some (sent .state .presence))
      ∧ (∀ p : Port, s.portOf i = some p → (s.port p).monitor = .fault → (t.port p).monitor = .fault)

/-- R12 to R15, R17: the ACK of a SET RATE puts the rate in use and sends the first ECHO; the first and second matching
ECHO REPLY send another; the third takes the station ONLINE with its counter uncertain and its missed count 0, posts
LINK_UP, and asks for its STATE. A mismatch of the bytes, a REJECT and a timeout of a training step fail it: above rate 0
the link drops to rate 0 and pauses 1200 ms; at rate 0 the station is DOWN, held by bring-up, with the next IDENT 1000 ms
away. Neither posts an event. (That the rate comes into use at the ACK and not at the end of the step is DEDUCED from the
worked sequence of section 1.6, log entry 24.) -/
def Obligations.TrainingReplies : Prop :=
  (∀ (i : Station) (seq : Byte) (first rate : Nat) (s : State), Alone s i seq (.setRate rate) .bringUp →
    (s.stn i).state = .training → (s.link i).training = some { first := first, rate := rate, phase := .setRate } →
    ∃ t, exec (.setRateAck i seq) s = .next t ∧ t.stn i =
        { s.stn i with rate := rate, nextSeq := (s.stn i).nextSeq + 1#8 }
      ∧ (t.link i).training = some { first := first, rate := rate, phase := .echo 0 }
      ∧ (t.link i).inFlight = some
        { seq := (s.stn i).nextSeq, request := .echo, owner := some .bringUp, timeout := s.roster[i].replyTimeout }
      ∧ SameBut i s t ∧ t.events = s.events)
  ∧ (∀ (i : Station) (seq : Byte) (first rate n : Nat) (s : State), Alone s i seq .echo .bringUp →
      (s.stn i).state = .training → (s.link i).training = some { first := first, rate := rate, phase := .echo n } →
      (n < 2 → ∃ t, exec (.echoReply i seq echoPattern) s = .next t
        ∧ t.stn i = { s.stn i with nextSeq := (s.stn i).nextSeq + 1#8 }
        ∧ (t.link i).training = some { first := first, rate := rate, phase := .echo (n + 1) }
        ∧ (t.link i).inFlight = some
          { seq := (s.stn i).nextSeq, request := .echo, owner := some .bringUp, timeout := s.roster[i].replyTimeout }
        ∧ SameBut i s t ∧ t.events = s.events)
      ∧ (n = 2 → ∃ t, exec (.echoReply i seq echoPattern) s = .next t ∧ t.stn i =
          { s.stn i with state := .online, rate := rate, missed := 0, uncertain := true,
                         nextSeq := (s.stn i).nextSeq + 1#8 }
        ∧ (t.link i).holder = some .presence ∧ (t.link i).training = none
        ∧ (t.link i).inFlight = some
          { seq := (s.stn i).nextSeq, request := .state, owner := some .presence, timeout := s.roster[i].replyTimeout }
        ∧ t.events = postEvent s.guardTime (.station i) (.linkUp rate (decide (rate < first))) s.events
        ∧ SameBut i s { t with ports := s.ports, sched := s.sched }))
  ∧ (∀ (i : Station) (seq : Byte) (q : StationRequest) (step : Training) (s : State), Alone s i seq q .bringUp →
      (s.stn i).state = .training → (s.link i).training = some step → q = .echo ∨ q = .setRate step.rate →
      let fails (command : Instr) : Prop := ∃ t, exec command s = .next t ∧ (t.link i).inFlight = none
        ∧ t.events = s.events ∧ SameBut i s { t with ports := s.ports }
        ∧ (0 < step.rate → t.stn i = { s.stn i with rate := 0 } ∧ t.ports = s.ports
            ∧ (t.link i).training = some { step with phase := .pause 1200 })
        ∧ (step.rate = 0 → t.stn i = { s.stn i with state := .down, rate := 0 } ∧ (t.link i).training = none
            ∧ (t.link i).holder = some .bringUp ∧ (t.link i).identTimer = some 1000)
      fails (.replyTimeout i)
      ∧ (∀ (reason : Byte) (why : RejectReason), rejectOf reason = some why → fails (.rejectReply i seq reason))
      ∧ (∀ (n : Nat) (bytes : List Byte), q = .echo → step.phase = .echo n → bytes.length = 32 → bytes ≠ echoPattern →
          fails (.echoReply i seq bytes)))

/-- R15, R16, R18: the STATE REPLY of a presence poll in ONLINE or QUARANTINED sets the mode, resets the missed count,
frees the link and starts the poll interval. An uncertain counter takes the value reported without an event; the value
expected changes nothing; another value is taken, UNEXPECTED_CHANGE is posted with the difference, and a sweep is asked
for where the station is ONLINE. R145, R147, R151, R154, R26, R27: the STATE REPLY of a controller's step is compared
in the same way, and UNEXPECTED_CHANGE does not stop the operation. Mode RUN fails a changeover or revert with cause
INTERLOCK, and ends a restore. Mode STOP or FAULT asks for the release. On a port of jumper NONE the step's first WRITE
goes out at once. On another port that is not in FAULT and that nobody holds the controller becomes its holder, the
output is released and the release limit runs; the WRITE goes out at once with a settle of 0, and otherwise the settle
timer runs and nothing is sent yet. A port in FAULT or held fails the operation with cause INHIBIT. (A value step that
fails here names the first of its values: log entry 39.) -/
def Obligations.StateReplyTaken : Prop :=
  (∀ (i : Station) (seq m : Byte) (v : Word) (mode : PlcMode) (s : State), Alone s i seq .state .presence →
    ((s.stn i).state = .online ∨ (s.stn i).state = .quarantined) → plcModeOf m = some mode →
    let interval := if 0 < (s.stn i).rate then min s.timing.pollInterval 400 else s.timing.pollInterval
    let t := (s.modStn i (fun r => { r with missed := 0, mode := some mode, expected := v, uncertain := false })).modLink i
      (fun l => { l with holder := none, inFlight := none, pollTimer := some interval })
    ((s.stn i).uncertain = true ∨ v = (s.stn i).expected → exec (.stateReply i seq m v) s = .next t)
    ∧ ((s.stn i).uncertain = false → v ≠ (s.stn i).expected →
        (s.stage = .configure ∨ (s.stn i).state = .quarantined) →
        exec (.stateReply i seq m v) s = .next
          (post (.station i) (.unexpectedChange (v - (s.stn i).expected)) t))
    ∧ ((s.stn i).uncertain = false → v ≠ (s.stn i).expected → s.stage = .guarding → (s.stn i).state = .online →
        exec (.stateReply i seq m v) s = .next (post (.station i) (.unexpectedChange (v - (s.stn i).expected))
          { t with sched := { t.sched with sweeps := queueSweep i t.sched.sweeps } })))
  ∧ (∀ (i : Station) (p : Port) (seq m : Byte) (v : Word) (mode : PlcMode) (st : Step) (kind : ChKind) (s : State),
      Alone s i seq .state .changeover → (s.stn i).state = .online → plcModeOf m = some mode → s.stage = .guarding →
      s.changeover.state = .applying → s.changeover.step = some st → st.station = i → s.changeover.kind = some kind →
      s.changeover.stop = none → s.portOf i = some p →
      let taken : Prop := (s.stn i).uncertain = true ∨ v = (s.stn i).expected
      let heard : StationRec := { s.stn i with missed := 0, mode := some mode, expected := v, uncertain := false }
      let events := if taken then s.events else
        postEvent s.guardTime (.station i) (.unexpectedChange (v - (s.stn i).expected)) s.events
      let sched : Scheduler := if taken then s.sched else { s.sched with sweeps := queueSweep i s.sched.sweeps }
      let failure (cause : Cause) : Failure := failureOf st s.changeover.done cause none
      let fails (cause : Cause) : Prop := ∃ t, exec (.stateReply i seq m v) s = .next t ∧ t.sched = sched
        ∧ (kind ≠ .restore → FailedAt i kind (failure cause) events s t)
        ∧ (kind = .restore → t.changeover = .idle ∧ (t.link i).holder = none ∧ (t.link i).inFlight = none
            ∧ (t.port p).holder ≠ some .changeover ∧ t.stn i = heard ∧ t.params = s.params
            ∧ (∀ (n : Nat) (e : AuditEntry), s.audit[n]? = some e →
                EntryReleased s.changeover.stations s.activeFormat false [] s t n e)
            ∧ t.events = postEvent s.guardTime .controller
                (.operationDone .restore .failed (s.changeover.restoreEntry.getD 0) (some (failure cause))) events)
      (mode = .run → fails .interlock)
      ∧ (mode ≠ .run → (s.port p).jumper ≠ .none → (s.port p).monitor = .fault ∨ (s.port p).holder ≠ none →
          fails .inhibit)
      ∧ (∀ (block offset : Nat) (words : List Word), mode ≠ .run → NextWrite s st s.changeover.done block offset words →
          let settle := s.roster[i].releaseSettle
          let sent : Transaction :=
            { seq := (s.stn i).nextSeq, request := .write block offset words, owner := some .changeover,
              timeout := s.roster[i].replyTimeout }
          let writes (t : State) : Prop := t.changeover = { s.changeover with phase := .writing }
            ∧ t.stn i = { heard with nextSeq := (s.stn i).nextSeq + 1#8 }
            ∧ t.link i = { s.link i with inFlight := some sent }
          let goesOn (t : State) : Prop := exec (.stateReply i seq m v) s = .next t ∧ t.events = events
            ∧ t.sched = sched ∧ SameButStep i s t
          ((s.port p).jumper = .none → ∃ t, goesOn t ∧ writes t ∧ t.ports = s.ports)
          ∧ ((s.port p).jumper ≠ .none → (s.port p).monitor ≠ .fault → (s.port p).holder = none →
              ∃ t, goesOn t ∧ (t.port p).driven = .released ∧ (t.port p).holder = some .changeover
                ∧ (t.port p).limitTimer = some 1500
                ∧ (settle = 0 → (t.port p).settleTimer = none ∧ writes t)
                ∧ (settle ≠ 0 → (t.port p).settleTimer = some settle
                    ∧ t.changeover = { s.changeover with phase := .settling } ∧ t.stn i = heard
                    ∧ t.link i = { s.link i with inFlight := none }))))

/-! ### Stations: results of transactions -/

/-- R17, R9, R80, R82, R83: every WRITE that ends ACK on an ONLINE station raises the expected counter by one, modulo
65536, and resets the missed count, whichever operation sent it. An ACK of a relay with words left sends the next
frame, under the same release. The last ACK of a relay to a FREE block ends it: the release is returned, the slot and
the link are free, the tool is answered DONE and its port is READY. The last ACK of a TUNABLE relay begins the
read-back. R145 to R148, R151: an ACK of a WRITE of the changeover controller's step sends the next frame of the block,
or the next value, under the same release. With nothing left to write the release is returned and the link given up:
the next step asks its station for STATE, at once on an idle link, and else waits for the link; after the last step the
state is VERIFYING and the first READ of the first step goes out. With a failure from outside noted while the WRITE was
in flight, the ACK still counts and the changeover or revert fails with it. -/
def Obligations.WriteAckTaken : Prop :=
  (∀ (i : Station) (seq : Byte) (tr : Transaction) (b o : Nat) (ws : List Word) (s : State), s.power = .running →
    (s.stn i).state = .online → (s.link i).inFlight = some tr → tr.seq = seq → tr.request = .write b o ws →
    ∃ t, exec (.writeAck i seq) s = .next t ∧ (t.stn i).expected = (s.stn i).expected + 1#16 ∧ (t.stn i).missed = 0
      ∧ (t.stn i).uncertain = (s.stn i).uncertain)
  ∧ (∀ (i : Station) (p : Port) (seq : Byte) (b o : Nat) (ws : List Word) (op : ToolOp) (s : State),
      Alone s i seq (.write b o ws) .tool → (s.stn i).state = .online → (s.stn i).slot = some op → op.write = true →
      op.expired = false →
      (op.acked + ws.length < op.words.length →
        let acked := op.acked + ws.length
        ∃ t, exec (.writeAck i seq) s = .next t
          ∧ (t.stn i).slot = some { op with acked := acked, phase := .writing, writeSent := true }
          ∧ (t.link i).holder = some .tool
          ∧ (t.link i).inFlight = some
            { seq := (s.stn i).nextSeq,
              request := .write op.block (op.offset + acked)
                ((op.words.drop acked).take (min (s.stn i).wordsPerFrame (op.words.length - acked))),
              owner := some .tool, timeout := s.roster[i].replyTimeout }
          ∧ SameBut i s t ∧ t.events = s.events)
      ∧ (op.acked + ws.length = op.words.length → op.readBack = false → op.adjusted = false → s.portOf i = some p → (s.engp op.port).state = .waiting →
        (s.engp op.port).attachment = op.attachment → (s.engp op.port).awaited = some i →
        ∃ t tx, exec (.writeAck i seq) s = .next t ∧ (t.stn i).slot = none ∧ (t.link i).holder = none
          ∧ (t.link i).inFlight = none
          ∧ ((s.port p).holder = some (.tool i) → (t.port p).driven = .asserted ∧ (t.port p).holder = none
              ∧ (t.port p).limitTimer = none ∧ (t.port p).settleTimer = none)
          ∧ ((s.port p).holder ≠ some (.tool i) → t.ports = s.ports) ∧ (t.engp op.port).state = .ready ∧ (t.engp op.port).awaited = none
          ∧ (t.engp op.port).tx = (s.engp op.port).tx ++ [tx] ∧ tx.tag = op.tag
          ∧ tx.reply = .done op.block op.offset op.words ∧ t.events = s.events ∧ t.params = s.params)
      ∧ (op.acked + ws.length = op.words.length → op.readBack = true → op.got = [] →
        ∃ t, exec (.writeAck i seq) s = .next t ∧ (t.stn i).slot = some
            { op with acked := op.words.length, phase := .readingBack }
          ∧ (t.link i).inFlight = some
            { seq := (s.stn i).nextSeq,
              request := .read op.block op.offset (min (s.stn i).wordsPerFrame op.count), owner := some .tool,
              timeout := s.roster[i].replyTimeout }
          ∧ SameBut i s t ∧ t.events = s.events))
  ∧ (∀ (i : Station) (seq : Byte) (b o : Nat) (ws : List Word) (st : Step) (s : State),
      Alone s i seq (.write b o ws) .changeover → (s.stn i).state = .online → s.changeover.state = .applying →
      s.changeover.step = some st → st.station = i →
      let done := match st with
        | .values _ _ => s.changeover.done + 1
        | _ => s.changeover.done + ws.length
      let acked (r : StationRec) : StationRec := { r with missed := 0, expected := r.expected + 1#16 }
      let sent (j : Station) (q : StationRequest) : Transaction :=
        { seq := (s.stn j).nextSeq, request := q, owner := some .changeover, timeout := s.roster[j].replyTimeout }
      (∀ (f : Failure) (kind : ChKind), s.changeover.stop = some f → s.changeover.kind = some kind → kind ≠ .restore →
        ∃ t, exec (.writeAck i seq) s = .next t ∧ FailedAt i kind f s.events s t ∧ (t.stn i).missed = 0
          ∧ (t.stn i).expected = (s.stn i).expected + 1#16)
      ∧ (∀ (block offset : Nat) (words : List Word), s.changeover.stop = none → NextWrite s st done block offset words →
          ∃ t, exec (.writeAck i seq) s = .next t ∧ t.changeover = { s.changeover with phase := .writing, done := done }
            ∧ t.stn i = { acked (s.stn i) with nextSeq := (s.stn i).nextSeq + 1#8 }
            ∧ t.link i = { s.link i with inFlight := some (sent i (.write block offset words)) }
            ∧ t.events = s.events ∧ SameBut i s { t with changeover := s.changeover })
      ∧ (∀ (k : Nat), s.changeover.stop = none → WrittenWhole s st done → s.changeover.position = some k →
          let ended (t : State) : Prop := exec (.writeAck i seq) s = .next t ∧ t.events = s.events
            ∧ (∀ p : Port, s.portOf i = some p → (s.port p).holder = some .changeover → (t.port p).driven = .asserted
                ∧ (t.port p).holder = none ∧ (t.port p).limitTimer = none ∧ (t.port p).settleTimer = none)
            ∧ (∀ p : Port, s.portOf i ≠ some p ∨ (s.port p).holder ≠ some .changeover → t.port p = s.port p)
            ∧ { t with stations := s.stations, links := s.links, ports := s.ports, changeover := s.changeover } = s
          let free (j : Station) : Prop := j = i
            ∨ (s.link j).holder = none ∧ (s.link j).waiters = [] ∧ (s.link j).inFlight = none
          let asks (t : State) (j : Station) (q : StationRequest) : Prop :=
            (∀ x : Station, t.stn x =
              let r := if x = i then acked (s.stn x) else s.stn x
              if x = j then { r with nextSeq := r.nextSeq + 1#8 } else r)
            ∧ (∀ x : Station, t.link x =
                if x = j then { s.link x with holder := some .changeover, inFlight := some (sent j q) }
                else if x = i then { s.link x with holder := none, inFlight := none } else s.link x)
          (∀ w : Step, s.changeover.work[k + 1]? = some w → (s.stn w.station).state = .online →
            (free w.station → ∃ t, ended t ∧ asks t w.station .state
              ∧ t.changeover = { s.changeover with position := some (k + 1), phase := .checking, done := 0, got := [] })
            ∧ (w.station ≠ i → (s.link w.station).holder ≠ none ∨ (s.link w.station).inFlight ≠ none →
                ∃ t, ended t ∧ t.stn i = acked (s.stn i) ∧ (∀ x, x ≠ i → t.stn x = s.stn x)
                  ∧ (∀ x : Station, t.link x =
                      if x = w.station then { s.link x with waiters := (s.link x).waiters ++ [.changeover] }
                      else if x = i then { s.link x with holder := none, inFlight := none } else s.link x)
                  ∧ t.changeover = { s.changeover with position := some (k + 1), phase := .waiting, done := 0, got := [] }))
          ∧ (∀ (w : Step) (block offset : Nat) (words : List Word), k + 1 = s.changeover.work.length →
              s.changeover.work[0]? = some w → (s.stn w.station).state = .online → free w.station →
              NextWrite s w 0 block offset words →
              ∃ t, ended t ∧ asks t w.station (.read block offset words.length)
                ∧ t.changeover = { s.changeover with
                    state := .verifying, position := some 0, phase := .reading, done := 0, got := [] })))

/-- R71, R81 to R83, R94, R163: the words that complete a tool's READ are its answer, DATA. The words that complete a
read-back equal to what was written verify the relay: each value of the change list becomes the parameter's current
value, the TUNABLE entries with a word of these parameters expect the new values and every other entry stays, the
release is returned, and the tool is answered DONE, or ADJUSTED for an adjusted write. The words that complete a DIRECT
READ are the channel's result, and ACCESS_DONE is posted. R80, R81, R94, R126, R127, R148, R163: words that do not
complete a read are kept, and the next READ of the same operation goes out: of a tool's READ or read-back, of a
channel, of an audit check, and of a verification, where a value must be as it was encoded. A step verified whole gives
up its link, and the next step's first READ goes out on an idle link. -/
def Obligations.DataReplyTaken : Prop :=
  (∀ (i : Station) (seq : Byte) (b o n : Nat) (ws : List Word) (op : ToolOp) (s : State),
    Alone s i seq (.read b o n) .tool → (s.stn i).state = .online → ws.length = n → (s.stn i).slot = some op →
    op.got.length + n = op.count → (s.engp op.port).state = .waiting →
    (s.engp op.port).attachment = op.attachment → (s.engp op.port).awaited = some i →
    (op.write = false → (∀ p : Port, (s.port p).holder ≠ some (.tool i)) →
      exec (.dataReply i seq ws) s = .next ((((s.modStn i (fun r => { r with missed := 0, slot := none })).freed i)
        |> sendTool op.port op.tag (.data op.block op.offset (op.got ++ ws))).modEng op.port (fun p =>
          { p with awaited := none, state := .ready })))
    ∧ (op.write = true → op.expired = false → op.got ++ ws = op.words →
        op.changes.Pairwise (fun a b => a.1 ≠ b.1) → op.readBack = true →
        ∃ t tx, exec (.dataReply i seq ws) s = .next t ∧ (t.stn i).slot = none ∧ (t.link i).holder = none
          ∧ (∀ p : Port, s.portOf i = some p → (t.port p).holder ≠ some (.tool i))
          ∧ (t.engp op.port).state = .ready ∧ (t.engp op.port).tx = (s.engp op.port).tx ++ [tx] ∧ tx.tag = op.tag
          ∧ tx.reply = (if op.adjusted = true then .adjusted op.block op.offset op.words
              else .done op.block op.offset op.words)
          ∧ (∀ k a x, (k, a) ∈ op.changes → tableGet s.params k = some x →
              tableGet t.params k = some (x.change a s.guardTime) ∧ (x.change a s.guardTime).current = a)
          ∧ (∀ k, (∀ a, (k, a) ∉ op.changes) → tableGet t.params k = tableGet s.params k) ∧ t.events = s.events
          ∧ t.audit.length = s.audit.length
          ∧ (∀ (m : Nat) (e : AuditEntry), s.audit[m]? = some e →
              EntryReleased [] s.activeFormat false op.changes s t m e)))
  ∧ (∀ (i : Station) (c : ChanId) (seq : Byte) (b o n : Nat) (ws : List Word) (w : AccessWork) (s : State),
      Alone s i seq (.read b o n) (.access c) → (s.stn i).state = .online → ws.length = n →
      (s.chan c).work = some w → w.station = i → w.kind = .directRead → w.image = none → w.got.length + n = w.count →
      exec (.dataReply i seq ws) s = .next (post (.channel c) (.accessDone .directRead none)
        (((s.modStn i (fun r => { r with missed := 0 })).freed i).setChan c
          { state := .done, work := some { w with got := w.got ++ ws, result := some (.words (w.got ++ ws)) } })))
  ∧ (∀ (i : Station) (seq : Byte) (b o n : Nat) (ws : List Word) (u : LinkUser) (s : State),
      Alone s i seq (.read b o n) u → (s.stn i).state = .online → ws.length = n →
      let asks (t : State) (j : Station) (block offset count : Nat) : Prop :=
        (t.link j).holder = some u ∧ (t.link j).inFlight = some
          { seq := (s.stn j).nextSeq, request := .read block offset count, owner := some u,
            timeout := s.roster[j].replyTimeout }
      let frame (count : Nat) : Nat := min (s.stn i).wordsPerFrame count
      (∀ op : ToolOp, u = .tool → (s.stn i).slot = some op → op.write = true ∧ op.expired = false ∨ op.write = false →
        op.got.length + n < op.count → ∃ t, exec (.dataReply i seq ws) s = .next t
          ∧ (t.stn i).slot = some
            { op with got := op.got ++ ws, phase := if op.write = true then .readingBack else .reading }
          ∧ asks t i op.block (op.offset + (op.got.length + n)) (frame (op.count - (op.got.length + n)))
          ∧ SameBut i s t ∧ t.events = s.events)
      ∧ (∀ (c : ChanId) (w : AccessWork), u = .access c → (s.chan c).work = some w → w.station = i →
          w.got.length + n < w.count → ∃ t, exec (.dataReply i seq ws) s = .next t
            ∧ t.chan c = { state := .running, work := some { w with got := w.got ++ ws } }
            ∧ (∀ d, d ≠ c → t.chan d = s.chan d)
            ∧ asks t i w.block (w.offset + (w.got.length + n)) (frame (w.count - (w.got.length + n)))
            ∧ SameBut i s { t with channels := s.channels } ∧ t.events = s.events)
      ∧ (∀ (c : Check) (e : AuditEntry), u = .audit → s.sched.check = some c → c.station = i →
          s.audit[c.entry]? = some e → c.got.length + n < e.length → ∃ t, exec (.dataReply i seq ws) s = .next t
            ∧ t.sched = { s.sched with check := some { c with got := c.got ++ ws } }
            ∧ asks t i e.block (c.got.length + n) (frame (e.length - (c.got.length + n)))
            ∧ SameBut i s { t with sched := s.sched } ∧ t.events = s.events)
      ∧ (∀ (st : Step) (done : Nat), u = .changeover → s.changeover.state = .verifying → s.changeover.step = some st →
          st.station = i →
          (match st with
            | .values _ items => done = s.changeover.done + 1 ∧ ∃ key v p,
                items[s.changeover.done]? = some (key, v) ∧ tableGet s.params key = some p ∧ ws = p.encode v
            | _ => done = s.changeover.done + n) →
          let got := match st with
            | .values _ _ => s.changeover.got
            | _ => s.changeover.got ++ ws
          (∀ (block offset : Nat) (words : List Word), NextWrite s st done block offset words →
            ∃ t, exec (.dataReply i seq ws) s = .next t ∧ asks t i block offset words.length
              ∧ t.changeover = { s.changeover with done := done, got := got, phase := .reading }
              ∧ SameBut i s { t with changeover := s.changeover } ∧ t.events = s.events)
          ∧ (∀ (k block offset : Nat) (w : Step) (words : List Word), WrittenWhole s st done →
              (match st with
                | .block _ _ _ im => imagePrint s.images im = some (fingerprint got)
                | .values _ _ => True
                | .restore _ _ all => got = all) →
              s.changeover.position = some k → s.changeover.work[k + 1]? = some w →
              (s.stn w.station).state = .online →
              (w.station = i ∨ (s.link w.station).holder = none ∧ (s.link w.station).waiters = []
                ∧ (s.link w.station).inFlight = none) →
              (∀ p : Port, (s.port p).holder ≠ some .changeover) → NextWrite s w 0 block offset words →
              ∃ t, exec (.dataReply i seq ws) s = .next t ∧ asks t w.station block offset words.length
                ∧ (w.station ≠ i → (t.link i).holder = none ∧ (t.link i).inFlight = none)
                ∧ t.changeover = { s.changeover with position := some (k + 1), done := 0, got := [], phase := .reading }
                ∧ t.events = s.events
                ∧ { t with stations := s.stations, links := s.links, changeover := s.changeover } = s)))

/-- R81 to R84, R86 to R89: a write relay in trouble ends. A read-back that differs first at offset o + d is answered
VERIFY_FAILED with that offset, the word written and the word read. A REJECT of its first WRITE is answered FAILED with
the reason, without an event or a sweep. A REJECT of a later WRITE or of its read-back, and a timeout that does not
lose the link, are answered UNCONFIRMED with the cause and the words acknowledged; so is every end of the transaction
in flight when the release has expired, with cause EXPIRED. VERIFY_FAILED and UNCONFIRMED post RELAY_TROUBLE and, in
GUARDING, ask for a sweep of the station. Each time the release is returned, the slot and the link are free, the port
is READY, and no parameter and no audit entry changes. R114, R115, R163: the words that complete a CAPTURE fill its
image at once, with its fingerprint, and the channel is DONE with COMPLETE; a REJECT or a timeout that does not lose
the link ends a channel's work with that failure and leaves a captured image open and empty. ACCESS_DONE is posted. -/
def Obligations.RelaysAndCapturesEnd : Prop :=
  (∀ (i : Station) (seq : Byte) (q : StationRequest) (op : ToolOp) (s : State), Alone s i seq q .tool →
    (s.stn i).state = .online → (s.stn i).slot = some op → op.write = true →
    (s.engp op.port).state = .waiting → (s.engp op.port).attachment = op.attachment →
    (s.engp op.port).awaited = some i →
    let ended (command : Instr) (record : StationRec) (reply : ToolReply) (sched : Scheduler) (events : List Event) :
        Prop :=
      ∃ t tx, exec command s = .next t ∧ t.stn i = { record with slot := none }
        ∧ (t.link i).holder = none ∧ (t.link i).inFlight = none
        ∧ (∀ p : Port, s.portOf i = some p → (s.port p).holder = some (.tool i) → (t.port p).driven = .asserted
            ∧ (t.port p).holder = none ∧ (t.port p).limitTimer = none ∧ (t.port p).settleTimer = none)
        ∧ (∀ p : Port, s.portOf i ≠ some p ∨ (s.port p).holder ≠ some (.tool i) → t.port p = s.port p)
        ∧ (t.engp op.port).state = .ready ∧ (t.engp op.port).awaited = none
        ∧ (t.engp op.port).tx = (s.engp op.port).tx ++ [tx] ∧ tx.tag = op.tag ∧ tx.reply = reply
        ∧ (∀ e : EngId, e ≠ op.port → t.engp e = s.engp e) ∧ t.sched = sched ∧ t.events = events
        ∧ SameBut i s { t with ports := s.ports, eng := s.eng, sched := s.sched }
    let heard : StationRec := { s.stn i with missed := 0 }
    let unheard : StationRec := { s.stn i with missed := (s.stn i).missed + 1 }
    let troubled (command : Instr) (record : StationRec) (reply : ToolReply) (trouble : Trouble) : Prop :=
      ended command record reply
        (if s.stage = .guarding then { s.sched with sweeps := queueSweep i s.sched.sweeps } else s.sched)
        (postEvent s.guardTime (.station i) (.relayTrouble trouble op.port op.block) s.events)
    let writing : Prop := ∃ b o ws, q = .write b o ws
    let reading : Prop := ∃ b o n, q = .read b o n
    let unconfirmed (command : Instr) (record : StationRec) (cause : Cause) (acked : Nat) : Prop :=
      troubled command record (.unconfirmed op.block cause acked) (.unconfirmed cause acked)
    (∀ (b o n d : Nat) (ws : List Word) (x y : Word), op.expired = false → q = .read b o n → ws.length = n → op.got.length + n = op.count →
      (op.got ++ ws).take d = op.words.take d → op.words[d]? = some x → (op.got ++ ws)[d]? = some y → x ≠ y →
      troubled (.dataReply i seq ws) heard (.verifyFailed op.block (op.offset + d) x y)
        (.verifyFailed (op.offset + d) x y))
    ∧ (∀ (reason : Byte) (why : RejectReason), rejectOf reason = some why →
        (op.expired = false → writing → op.acked = 0 → ended (.rejectReply i seq reason) heard
          (.failed op.block (.reject why)) s.sched s.events)
        ∧ (op.expired = false → writing ∧ 0 < op.acked ∨ reading →
            unconfirmed (.rejectReply i seq reason) heard (.reject why) op.acked)
        ∧ (op.expired = true → writing ∨ reading → unconfirmed (.rejectReply i seq reason) heard .expired op.acked))
    ∧ ((s.stn i).missed < 2 →
        let cause : Cause := if op.expired = true then .expired else .noReply
        (writing → unconfirmed (.replyTimeout i) { unheard with uncertain := true } cause op.acked)
        ∧ (reading → unconfirmed (.replyTimeout i) unheard cause op.acked))
    ∧ (∀ (b o : Nat) (ws : List Word), op.expired = true → q = .write b o ws →
        unconfirmed (.writeAck i seq) { heard with expected := (s.stn i).expected + 1#16 } .expired
          (op.acked + ws.length))
    ∧ (∀ (b o n : Nat) (ws : List Word), op.expired = true → q = .read b o n → ws.length = n →
        unconfirmed (.dataReply i seq ws) heard .expired op.acked))
  ∧ (∀ (i : Station) (c : ChanId) (seq : Byte) (b o n : Nat) (w : AccessWork) (s : State),
      Alone s i seq (.read b o n) (.access c) → (s.stn i).state = .online → (s.chan c).work = some w → w.station = i →
      let ended (command : Instr) (missed : Nat) (result : AccessWork) (failure : Option Cause) (images : List Image) :
          Prop :=
        ∃ t, exec command s = .next t ∧ t.chan c = { state := .done, work := some result }
          ∧ (∀ d, d ≠ c → t.chan d = s.chan d) ∧ t.stn i = { s.stn i with missed := missed }
          ∧ (t.link i).holder = none ∧ (t.link i).inFlight = none ∧ t.images = images
          ∧ t.events = postEvent s.guardTime (.channel c) (.accessDone w.kind failure) s.events
          ∧ SameBut i s { t with images := s.images, channels := s.channels }
      let failed (command : Instr) (missed : Nat) (cause : Cause) : Prop :=
        ended command missed { w with got := [], result := some (.failed cause) } (some cause)
          (s.images.map (fun im =>
            if w.image = some im.id ∧ im.capture = some c then { im with capture := none } else im))
      (∀ (ws : List Word) (id : Nat), ws.length = n → w.got.length + n = w.count → w.kind = .capture →
        w.image = some id → (∀ im ∈ s.images, im.id = id → im.capture = some c ∧ im.words = [] ∧ im.length = w.count) →
        ended (.dataReply i seq ws) 0 { w with got := w.got ++ ws, result := some .complete } none
          (s.images.map (fun im => if im.id = id then
            { im with words := w.got ++ ws, print := some (fingerprint (w.got ++ ws)), capture := none } else im)))
      ∧ (∀ (reason : Byte) (why : RejectReason), rejectOf reason = some why →
          failed (.rejectReply i seq reason) 0 (.reject why))
      ∧ ((s.stn i).missed < 2 → failed (.replyTimeout i) ((s.stn i).missed + 1) .noReply))

/-- R144, R148, R149, R152, R154, R73, R119 to R121: the words that complete the last step of VERIFYING, a block, a
station's values or a restore, and agree with what was written end the operation: the controller is IDLE and the link
free. A changeover commits: the target becomes the active format and the format state of every station held; each value
of its recipe becomes its parameter's baseline and current value with the budget window closed; the TUNABLE entries
with a word of these parameters expect the new values; every FORMAT entry is resolved against the target; the SUSPENDED
entries of the stations held become UNCHECKED; OPERATION_DONE is posted with COMMITTED. A revert does the same with the
values it wrote and the active format as it stands, resolves the FORMAT entries of the stations held alone, and posts
REVERTED. A restore leaves its entry MATCHED without a drift record (a FORMAT one resolved against the active format),
the station's other SUSPENDED entries UNCHECKED, parameters and format states as they were, and posts RESTORED. -/
def Obligations.VerifiedOperationsEnd : Prop :=
  ∀ (i : Station) (seq : Byte) (b o n k : Nat) (ws : List Word) (last : Step) (s : State),
    Alone s i seq (.read b o n) .changeover → (s.stn i).state = .online → ws.length = n →
    s.changeover.state = .verifying → s.changeover.position = some k → k + 1 = s.changeover.work.length →
    s.changeover.work[k]? = some last → last.station = i →
    (match last with
      | .block _ _ _ im => s.changeover.done = s.changeover.got.length
          ∧ s.changeover.got.length + n = (imageWords s.images im).length
          ∧ imagePrint s.images im = some (fingerprint (s.changeover.got ++ ws))
      | .values _ items => s.changeover.done + 1 = items.length ∧ ∃ key v p,
          items[s.changeover.done]? = some (key, v) ∧ tableGet s.params key = some p ∧ ws = p.encode v
      | .restore _ _ words => s.changeover.done = s.changeover.got.length ∧ s.changeover.got ++ ws = words) →
    let held := s.changeover.stations
    let takes (vs : List (Nat × Int)) (t : State) : Prop :=
      (∀ key v p, (key, v) ∈ vs → (∀ x, (key, x) ∈ vs → x = v) → tableGet s.params key = some p →
        tableGet t.params key = some { p with base := v, current := v, window := none })
      ∧ ∀ key, (∀ v, (key, v) ∉ vs) → tableGet t.params key = tableGet s.params key
    let ended (format : Station → FormatState) (done : Detail) (t : State) : Prop :=
      exec (.dataReply i seq ws) s = .next t ∧ t.changeover = .idle
        ∧ t.link i = { s.link i with holder := none, inFlight := none } ∧ (∀ j, j ≠ i → t.link j = s.link j)
        ∧ (∀ p : Port, (s.port p).holder ≠ some .changeover → t.port p = s.port p)
        ∧ (∀ j : Station, t.stn j =
            { s.stn j with missed := if j = i then 0 else (s.stn j).missed, format := format j })
        ∧ t.audit.length = s.audit.length ∧ t.events = postEvent s.guardTime .controller done s.events
        ∧ { t with activeFormat := s.activeFormat, params := s.params, audit := s.audit, sched := s.sched,
                   changeover := s.changeover, stations := s.stations, links := s.links, ports := s.ports,
                   events := s.events } = s
    (∀ (f : Nat) (r : Recipe), s.changeover.kind = some .changeover → s.changeover.target = some f →
      tableGet s.recipes f = some r →
      ∃ t, ended (fun j => if j ∈ held then .fmt f else (s.stn j).format) (.operationDone .changeover .committed f none) t
        ∧ t.activeFormat = f ∧ takes r.values t
        ∧ (∀ (m : Nat) (e : AuditEntry), s.audit[m]? = some e → EntryReleased held f true r.values s t m e)
        ∧ { t.sched with check := s.sched.check } = s.sched ∧ (s.sched.check = none → t.sched.check = none))
    ∧ (∀ f : Nat, s.changeover.kind = some .revert → s.changeover.target = some f →
        let written := (s.changeover.work.map (fun st => match st with
          | .values _ items => items
          | _ => [])).flatten
        ∃ t, ended (fun j => if j ∈ held then .fmt f else (s.stn j).format) (.operationDone .revert .reverted f none) t
          ∧ t.activeFormat = s.activeFormat ∧ takes written t ∧ t.sched = s.sched
          ∧ (∀ (m : Nat) (e : AuditEntry), s.audit[m]? = some e →
              EntryReleased held s.activeFormat false written s t m e))
    ∧ (∀ (entry : Nat) (e : AuditEntry), s.changeover.kind = some .restore → s.changeover.restoreEntry = some entry →
        s.audit[entry]? = some e →
        ∃ t, ended (fun j => (s.stn j).format) (.operationDone .restore .restored entry none) t
          ∧ t.activeFormat = s.activeFormat ∧ t.params = s.params ∧ t.sched = s.sched
          ∧ (let restored : AuditEntry :=
              { e with drift := none, state := .matched, lastCheck := some s.guardTime, lastOutcome := some .matched }
            (e.cls ≠ some .format → t.audit[entry]? = some restored)
            ∧ (∀ id, e.cls = some .format → e.station ∈ held →
                resolvedImage s.recipes s.activeFormat e.station e.block = some id →
                t.audit[entry]? = some { restored with resolved := some id, expected := imagePrint s.images id }))
          ∧ (∀ (m : Nat) (x : AuditEntry), m ≠ entry → s.audit[m]? = some x →
              EntryReleased held s.activeFormat false [] s t m x))

/-- R126 to R130: a SUM REPLY equal to the fingerprint expected ends the check with a match: the entry's last check
is now, its outcome MATCHED, and its state MATCHED unless it is in DRIFT. One that differs is confirmed by reading the
block, and nothing is decided yet. The words that complete a check's reading end it: a READ check whose fingerprint is the
expected one with a match; a confirming read that finds every word equal with a match and the station's sums unreliable;
words that differ first at offset d, with outcome DIFFER, and on an entry not in DRIFT with the drift record of that offset,
the word expected, the word read, the fingerprint read and the time, and a DRIFT event; an entry in DRIFT keeps its record.
A REJECT, or a timeout that does not lose the link, ends a check with outcome UNREACHABLE and no event. A result to be
discarded changes nothing of the entry. A check that keeps its image over a new resolution compares with that image (log
entry 40). -/
def Obligations.SumReplyTaken : Prop :=
  (∀ (i : Station) (k b n : Nat) (seq : Byte) (s1 s2 : Word) (e : AuditEntry) (c : Check) (f : Fingerprint) (s : State),
    Alone s i seq (.sum b n) .audit → (s.stn i).state = .online → s1.toNat < 65521 → s2.toNat < 65521 →
    s.sched.check = some c → c.entry = k → c.station = i → c.discard = false → c.got = [] → c.bySweep = false →
    s.audit[k]? = some e →
    (c.kept = none ∧ e.expected = some f ∨ ∃ id, c.kept = some id ∧ imagePrint s.images id = some f) →
    s.sched.paceTimer ≠ none →
    (f = (s1.toNat, s2.toNat) → ∃ t, exec (.sumReply i seq s1 s2) s = .next t
      ∧ t.audit[k]? = some { e with
          lastCheck := some s.guardTime
          lastOutcome := some .matched
          state := if e.state = .drift then .drift else .matched }
      ∧ (∀ j, j ≠ k → t.audit[j]? = s.audit[j]?) ∧ t.sched = { s.sched with check := none }
      ∧ (t.link i).holder = none ∧ (t.link i).inFlight = none
      ∧ SameBut i s { t with audit := s.audit, sched := s.sched } ∧ t.events = s.events)
    ∧ (f ≠ (s1.toNat, s2.toNat) → ∃ t, exec (.sumReply i seq s1 s2) s = .next t ∧ t.audit = s.audit
        ∧ t.sched.check = some { c with phase := .confirming }
        ∧ (t.link i).inFlight = some
          { seq := (s.stn i).nextSeq, request := .read e.block 0 (min (s.stn i).wordsPerFrame e.length),
            owner := some .audit, timeout := s.roster[i].replyTimeout }
        ∧ SameBut i s { t with sched := s.sched } ∧ t.events = s.events))
  ∧ (∀ (i : Station) (k b o n : Nat) (seq : Byte) (ws ref : List Word) (e : AuditEntry) (c : Check) (f : Fingerprint)
      (s : State), Alone s i seq (.read b o n) .audit → (s.stn i).state = .online → ws.length = n →
      s.sched.check = some c → c.entry = k → c.station = i → c.bySweep = false → s.audit[k]? = some e →
      c.got.length + n = e.length → ref.length = e.length → s.sched.paceTimer ≠ none →
      (c.kept = none ∧ e.expected = some f
          ∧ ((∃ id, (e.cls = some .fixed ∧ e.image = some id ∨ e.cls = some .format ∧ e.resolved = some id)
                ∧ ref = imageWords s.images id)
              ∨ (∃ id, e.cls = some .tunable ∧ e.image = some id ∧ (imageWords s.images id).length = e.length
                ∧ ∀ (j : Nat) (w : Word), (imageWords s.images id)[j]? = some w → ref[j]? = some
                  (match paramAt s.params e.station e.block j with
                   | some (_, p) => (p.encode p.current).getD (j - p.offset) w
                   | none => w)))
        ∨ ∃ id, c.kept = some id ∧ e.cls = some .format ∧ imagePrint s.images id = some f
            ∧ ref = imageWords s.images id) →
      let got := c.got ++ ws
      let ended (entry : AuditEntry) (unreliable : Bool) (events : List Event) : Prop :=
        ∃ t, exec (.dataReply i seq ws) s = .next t ∧ t.audit[k]? = some entry
          ∧ (∀ j, j ≠ k → t.audit[j]? = s.audit[j]?) ∧ t.sched = { s.sched with check := none }
          ∧ t.stn i = { s.stn i with missed := 0, sumUnreliable := unreliable }
          ∧ (t.link i).holder = none ∧ (t.link i).inFlight = none ∧ t.events = events
          ∧ SameBut i s { t with audit := s.audit, sched := s.sched }
      let matched : AuditEntry := { e with
        lastCheck := some s.guardTime
        lastOutcome := some .matched
        state := if e.state = .drift then .drift else .matched }
      (c.discard = true → ended e (s.stn i).sumUnreliable s.events)
      ∧ (c.discard = false → c.phase = .reading → fingerprint got = f →
          ended matched (s.stn i).sumUnreliable s.events)
      ∧ (c.discard = false → c.phase = .confirming → got = ref → ended matched true s.events)
      ∧ (∀ (d : Nat) (x y : Word), c.discard = false →
          (c.phase = .confirming ∨ c.phase = .reading ∧ fingerprint got ≠ f) → got.take d = ref.take d →
          ref[d]? = some x → got[d]? = some y → x ≠ y →
          (e.state = .drift → ended { e with lastCheck := some s.guardTime, lastOutcome := some .differ }
            (s.stn i).sumUnreliable s.events)
          ∧ (e.state ≠ .drift → ended { e with
                lastCheck := some s.guardTime
                lastOutcome := some .differ
                state := .drift
                drift := some { offset := d, expected := x, actual := y, seen := fingerprint got, time := s.guardTime } }
              (s.stn i).sumUnreliable (postEvent s.guardTime (.station i) (.drift k) s.events))))
  ∧ (∀ (i : Station) (k : Nat) (seq reason : Byte) (q : StationRequest) (why : RejectReason) (e : AuditEntry) (c : Check)
      (s : State), Alone s i seq q .audit → (s.stn i).state = .online → rejectOf reason = some why →
      ((∃ b n, q = .sum b n) ∨ ∃ b o n, q = .read b o n) → s.sched.check = some c → c.entry = k → c.station = i →
      c.discard = false → c.bySweep = false → s.audit[k]? = some e → s.sched.paceTimer ≠ none →
      let ended (command : Instr) (missed : Nat) : Prop := ∃ t, exec command s = .next t
        ∧ t.audit[k]? = some { e with
            lastCheck := some s.guardTime
            lastOutcome := some .unreachable
            state := if e.state = .drift then .drift else .unreachable }
        ∧ (∀ j, j ≠ k → t.audit[j]? = s.audit[j]?) ∧ t.sched = { s.sched with check := none }
        ∧ t.stn i = { s.stn i with missed := missed } ∧ (t.link i).holder = none ∧ (t.link i).inFlight = none
        ∧ t.events = s.events ∧ SameBut i s { t with audit := s.audit, sched := s.sched }
      ended (.rejectReply i seq reason) 0 ∧ ((s.stn i).missed < 2 → ended (.replyTimeout i) ((s.stn i).missed + 1)))

/-- R9, R15 to R17, R95: a REJECT resets the missed count of an ONLINE station and moves neither the expected counter
nor its certainty; a presence poll rejected frees the link and starts the poll interval, the mode as it was; a tool
read rejected is answered FAILED with the reason. A reply timeout counts as missed, and a WRITE that timed out makes
the counter uncertain. The third in a row loses the link: the station goes to DOWN, LINK_DOWN is posted, and the first
IDENT is 1000 ms away. R7, R180: a reply frame that carries another sequence number than the one outstanding, that no
request awaits, whose kind does not answer the request, or that is not well formed for it, is discarded and changes
nothing. R19, R20: when a transaction ends whose operation has ended before it, and when a presence poll ends, the link
passes to the waiter of highest priority, among equals the one placed first: it becomes the holder, the others wait on,
and its first request goes out. -/
def Obligations.RejectsAndTimeouts : Prop :=
  (∀ (i : Station) (seq reason : Byte) (tr : Transaction) (why : RejectReason) (s : State), s.power = .running →
    (s.stn i).state = .online → (s.link i).inFlight = some tr → tr.seq = seq → rejectOf reason = some why →
    ∃ t, exec (.rejectReply i seq reason) s = .next t ∧ (t.stn i).missed = 0
      ∧ (t.stn i).expected = (s.stn i).expected ∧ (t.stn i).uncertain = (s.stn i).uncertain
      ∧ (t.stn i).mode = (s.stn i).mode)
  ∧ (∀ (i : Station) (seq reason : Byte) (why : RejectReason) (s : State), Alone s i seq .state .presence →
      (s.stn i).state = .online → rejectOf reason = some why →
      let interval := if 0 < (s.stn i).rate then min s.timing.pollInterval 400 else s.timing.pollInterval
      exec (.rejectReply i seq reason) s = .next ((s.modStn i (fun r => { r with missed := 0 })).modLink i (fun l =>
        { l with holder := none, inFlight := none, pollTimer := some interval })))
  ∧ (∀ (i : Station) (seq reason : Byte) (b o n : Nat) (why : RejectReason) (op : ToolOp) (s : State),
      Alone s i seq (.read b o n) .tool → (s.stn i).state = .online → rejectOf reason = some why →
      (s.stn i).slot = some op → op.write = false → (s.engp op.port).state = .waiting →
      (s.engp op.port).attachment = op.attachment → (s.engp op.port).awaited = some i →
      (∀ p : Port, (s.port p).holder ≠ some (.tool i)) →
      exec (.rejectReply i seq reason) s = .next ((((s.modStn i (fun r => { r with missed := 0, slot := none })).freed i)
        |> sendTool op.port op.tag (.failed op.block (.reject why))).modEng op.port (fun p =>
          { p with awaited := none, state := .ready })))
  ∧ (∀ (i : Station) (tr : Transaction) (s : State), s.power = .running → (s.stn i).state = .online →
      (s.link i).inFlight = some tr → (s.stn i).missed < 2 →
      ∃ t, exec (.replyTimeout i) s = .next t ∧ (t.stn i).state = .online ∧ (t.stn i).missed = (s.stn i).missed + 1
        ∧ (∀ b o ws, tr.request = .write b o ws → (t.stn i).uncertain = true)
        ∧ (t.stn i).expected = (s.stn i).expected)
  ∧ (∀ (i : Station) (seq : Byte) (s : State), Alone s i seq .state .presence → (s.stn i).state = .online →
      (s.stn i).missed = 2 → i ∉ s.changeover.stations → PortMapOk s.portMap → ReleasesOk s →
      ∃ t, exec (.replyTimeout i) s = .next t
        ∧ t.stn i = { s.stn i with state := .down, reason := none, missed := 0, mode := none, uncertain := true, rate := 0 }
        ∧ (t.link i).holder = some .bringUp ∧ (t.link i).identTimer = some 1000 ∧ (t.link i).inFlight = none
        ∧ (∀ p : Port, s.portMap[p] = some i → (t.port p).driven = .asserted)
        ∧ t.events = postEvent s.guardTime (.station i) (.linkDown .online) s.events)
  ∧ (∀ (i : Station) (seq kind : Byte) (body : List Byte) (s : State),
      (∀ (r : StationReply) (tr : Transaction), parseReply kind body = some r → (s.link i).inFlight = some tr →
        tr.seq = seq → answers tr.request r = true → wellFormedReply tr.request r = false) →
      exec (.malformedReply i seq kind body) s = .next s ∧ exec (.strayFrame i seq kind body) s = .next s)
  ∧ (∀ (i : Station) (seq reason : Byte) (before after : List LinkUser) (u : LinkUser) (q : StationRequest)
      (tr : Transaction) (why : RejectReason) (s : State), s.power = .running → (s.stn i).state = .online →
      (s.link i).inFlight = some tr → tr.seq = seq → rejectOf reason = some why →
      (s.link i).waiters = before ++ u :: after →
      let rank (v : LinkUser) : Nat := match v with
        | .bringUp => 0
        | .changeover => 1
        | .tool => 2
        | .access _ => 3
        | .audit => 4
        | .presence => 5
      (∀ v ∈ before, rank u < rank v) → (∀ v ∈ after, rank u ≤ rank v) → FirstRequest s i u q →
      let passes (c : Instr) : Prop := ∃ t, exec c s = .next t ∧ (t.link i).holder = some u
        ∧ (t.link i).waiters = before ++ after
        ∧ (t.link i).inFlight = some
          { seq := (s.stn i).nextSeq, request := q, owner := some u, timeout := s.roster[i].replyTimeout }
        ∧ t.events = s.events ∧ ∀ j : Station, j ≠ i → t.stn j = s.stn j ∧ t.link j = s.link j
      (tr.owner = none → (s.link i).holder = none →
        passes (.rejectReply i seq reason) ∧ ((s.stn i).missed < 2 → passes (.replyTimeout i)))
      ∧ (tr.owner = some .presence → (s.link i).holder = some .presence → u ≠ .presence → .presence ∉ before →
          .presence ∉ after → passes (.rejectReply i seq reason)))

/-! ### Inhibit ports and inputs -/

/-- R24, R27 to R30, R32, R145, R20, R21, R85, R89: when a port is ready the operation that holds it sends its first
WRITE, a relay or the changeover controller. When the release limit expires the output is reasserted at once; a relay
with nothing in flight then ends UNCONFIRMED with cause EXPIRED, and one with a transaction in flight waits for its
result. The monitor of a HIGH or LOW port whose station is ONLINE or QUARANTINED compares the level sensed with the
level called for: HIGH calls for a high level asserted and a low one released, LOW the other way round. Equal levels
are AGREE, also after DISAGREE; levels that begin to differ are DISAGREE from 0 ms, and a difference already timed goes
on. A port in FAULT stays there, and every other port is IDLE. A disagreement that lasts puts the port in FAULT,
reasserts the output, and quarantines its ONLINE station with reason INHIBIT; a station QUARANTINED for its identity
changes its reason to INHIBIT. R90, R95, R129, R147: the quarantine ends the tool operation, the audit check or the
changeover that holds the link or waits for it: a relay that has sent a WRITE UNCONFIRMED and another tool operation
FAILED, both with cause QUARANTINE, a check without a result, and a changeover or revert FAILED with cause QUARANTINE.
A transaction in flight keeps the link, with nobody to take its result. (The order of the events of one step: log entry
14; a release that had expired before: log entry 42; the value a value step names: log entry 39.) -/
def Obligations.InhibitPortEvents : Prop :=
  (∀ (p : Port) (i : Station) (ms : Nat) (op : ToolOp) (s : State), s.power = .running →
    (s.port p).settleTimer = some ms → (s.port p).holder = some (.tool i) → (s.stn i).slot = some op →
    op.phase = .settling → op.acked = 0 →
    ∃ t, exec (.releaseSettleExpiry p) s = .next t ∧ t.port p = { s.port p with settleTimer := none }
      ∧ (t.stn i).slot = some { op with phase := .writing, writeSent := true }
      ∧ (t.link i).inFlight = some
        { seq := (s.stn i).nextSeq,
          request := .write op.block op.offset (op.words.take (min (s.stn i).wordsPerFrame op.words.length)),
          owner := some .tool, timeout := s.roster[i].replyTimeout }
      ∧ SameBut i s { t with ports := s.ports } ∧ t.events = s.events)
  ∧ (∀ (p : Port) (i : Station) (ms block offset : Nat) (words : List Word) (st : Step) (s : State), s.power = .running →
      (s.port p).settleTimer = some ms → (s.port p).holder = some .changeover → s.changeover.step = some st →
      st.station = i → s.changeover.phase = .settling → NextWrite s st s.changeover.done block offset words →
      ∃ t, exec (.releaseSettleExpiry p) s = .next t ∧ t.port p = { s.port p with settleTimer := none }
        ∧ t.changeover = { s.changeover with phase := .writing }
        ∧ (t.link i).inFlight = some
          { seq := (s.stn i).nextSeq, request := .write block offset words, owner := some .changeover,
            timeout := s.roster[i].replyTimeout }
        ∧ SameBut i s { t with ports := s.ports, changeover := s.changeover } ∧ t.events = s.events)
  ∧ (∀ (p : Port) (i : Station) (ms : Nat) (op : ToolOp) (s : State), s.power = .running →
      (s.port p).limitTimer = some ms → (s.port p).holder = some (.tool i) → s.portOf i = some p →
      (s.stn i).slot = some op → op.write = true →
      ((s.link i).inFlight = none → (s.link i).waiters = [] → (s.link i).holder = some .tool →
        (s.engp op.port).state = .waiting → (s.engp op.port).attachment = op.attachment →
        (s.engp op.port).awaited = some i →
        ∃ t tx, exec (.releaseLimitExpiry p) s = .next t ∧ (t.port p).driven = .asserted ∧ (t.port p).holder = none
          ∧ (t.port p).limitTimer = none ∧ (t.port p).settleTimer = none ∧ (t.stn i).slot = none
          ∧ (t.link i).holder = none ∧ (t.engp op.port).tx = (s.engp op.port).tx ++ [tx] ∧ tx.tag = op.tag
          ∧ tx.reply = .unconfirmed op.block .expired op.acked
          ∧ t.events = postEvent s.guardTime (.station i)
              (.relayTrouble (.unconfirmed .expired op.acked) op.port op.block) s.events)
      ∧ (∀ tr : Transaction, (s.link i).inFlight = some tr → tr.owner = some .tool →
        ∃ t, exec (.releaseLimitExpiry p) s = .next t ∧ (t.port p).driven = .asserted ∧ (t.port p).holder = none
          ∧ (t.port p).limitTimer = none ∧ (t.port p).settleTimer = none
          ∧ (t.stn i).slot = some { op with expired := true } ∧ t.links = s.links ∧ t.events = s.events))
  ∧ (∀ (p : Port) (level : Bool) (s : State), s.power = .running →
      let r := s.port p
      let comparing : Prop := (r.jumper = .high ∨ r.jumper = .low) ∧ ∃ i : Station, s.portMap[p] = some i
        ∧ ((s.stn i).state = .online ∨ (s.stn i).state = .quarantined)
      let called : Bool := match r.jumper, r.driven with
        | .low, .asserted => false
        | .low, .released => true
        | _, .asserted => true
        | _, .released => false
      let becomes (m : Monitor) : Prop :=
        exec (.inhibitSenseChange p level) s = .next (s.modPort p (fun r => { r with sensed := level, monitor := m }))
      (r.monitor = .fault → becomes .fault)
      ∧ (r.monitor ≠ .fault → ¬ comparing → becomes .idle)
      ∧ (r.monitor ≠ .fault → comparing → level = called → becomes .agree)
      ∧ (r.monitor = .idle ∨ r.monitor = .agree → comparing → level ≠ called → becomes (.disagree 0))
      ∧ (∀ ms, r.monitor = .disagree ms → comparing → level ≠ called → becomes (.disagree ms)))
  ∧ (∀ (p : Port) (i : Station) (ms : Nat) (s : State), s.power = .running → s.portMap[p] = some i →
      s.portOf i = some p → (s.stn i).state = .online → (s.port p).monitor = .disagree ms → (s.link i).holder = none →
      (s.link i).waiters = [] → i ∉ s.changeover.stations →
      ∃ t, exec (.inhibitFault p) s = .next t ∧ (t.port p).monitor = .fault ∧ (t.port p).driven = .asserted
        ∧ (t.port p).holder = none ∧ t.stn i = { s.stn i with state := .quarantined, reason := some .inhibit }
        ∧ t.events = postEvent s.guardTime (.station i) (.quarantined .inhibit) s.events
        ∧ (∀ q ∈ t.sched.sweeps, q.station ≠ i))
  ∧ (∀ (p : Port) (i : Station) (ms : Nat) (s : State), s.power = .running → s.portMap[p] = some i →
      (s.port p).monitor = .disagree ms → (s.stn i).state = .quarantined → (s.stn i).reason = some .identity →
      exec (.inhibitFault p) s = .next (post (.station i) (.quarantined .inhibit)
        ((s.modStn i (fun r => { r with reason := some .inhibit })).modPort p (fun r =>
          { r with monitor := .fault, driven := .asserted, holder := none, limitTimer := none, settleTimer := none }))))
  ∧ (∀ (p : Port) (i : Station) (ms : Nat) (u : LinkUser) (s : State), s.power = .running → s.portMap[p] = some i →
      s.portOf i = some p → (s.stn i).state = .online → (s.port p).monitor = .disagree ms →
      let holds : Prop := (s.link i).holder = some u ∧ (s.link i).waiters = []
      let waits : Prop := (s.link i).waiters = [u] ∧ (s.link i).inFlight ≠ none
        ∧ ((s.link i).holder = some .presence ∨ (s.link i).holder = none)
        ∧ ∀ x, (s.link i).inFlight = some x → x.owner ≠ some u
      holds ∨ waits →
      let posted := postEvent s.guardTime (.station i) (.quarantined .inhibit) s.events
      let ended (t : State) : Prop := exec (.inhibitFault p) s = .next t
        ∧ t.port p = { s.port p with monitor := .fault, driven := .asserted, holder := none, limitTimer := none,
                                     settleTimer := none }
        ∧ (t.stn i).state = .quarantined ∧ (t.stn i).reason = some .inhibit
        ∧ t.link i = { s.link i with
            holder := if (s.link i).holder = some u then none else (s.link i).holder
            waiters := []
            inFlight := (s.link i).inFlight.map (fun x => if x.owner = some u then { x with owner := none } else x) }
        ∧ (∀ x ∈ t.sched.sweeps, x.station ≠ i) ∧ ∀ j : Station, j ≠ i → t.link j = s.link j
      (∀ op : ToolOp, u = .tool → i ∉ s.changeover.stations → (s.stn i).slot = some op →
        (s.engp op.port).state = .waiting → (s.engp op.port).attachment = op.attachment →
        (s.engp op.port).awaited = some i →
        let written : Prop := op.write = true ∧ op.writeSent = true
        ∃ t tx, ended t ∧ (t.stn i).slot = none ∧ (t.engp op.port).state = .ready
          ∧ (t.engp op.port).tx = (s.engp op.port).tx ++ [tx] ∧ tx.tag = op.tag
          ∧ (written → tx.reply = .unconfirmed op.block .quarantine op.acked ∧ t.events = postEvent s.guardTime
              (.station i) (.relayTrouble (.unconfirmed .quarantine op.acked) op.port op.block) posted)
          ∧ (¬ written → tx.reply = .failed op.block .quarantine ∧ t.events = posted))
      ∧ (∀ c : Check, u = .audit → i ∉ s.changeover.stations → s.sched.check = some c → c.station = i →
          s.sched.paceTimer ≠ none → ∃ t, ended t ∧ t.sched.check = none ∧ t.audit = s.audit ∧ t.events = posted)
      ∧ (∀ (st : Step) (kind : ChKind), u = .changeover → i ∈ s.changeover.stations →
          (s.changeover.state = .applying ∨ s.changeover.state = .verifying) →
          s.changeover.step = some st → st.station = i → s.changeover.kind = some kind → kind ≠ .restore →
          s.changeover.stop = none →
          let f := failureOf st s.changeover.done .quarantine none
          ∃ t, ended t ∧ t.changeover.state = .failed ∧ t.changeover.failure = some f
            ∧ (∀ j : Station, (t.stn j).format = if j ∈ s.changeover.stations then .mixed else (s.stn j).format)
            ∧ t.params = s.params ∧ t.audit = s.audit
            ∧ t.events = postEvent s.guardTime .controller
                (.operationDone kind .failed (s.changeover.target.getD 0) (some f)) posted))

/-- R33 to R35, R147, R151: a change of a raw level restarts its hold time, and with a check time of 0 it is accepted at
once. A raw level held for the check time becomes the accepted level, with an INPUT_CHANGE when the mode reports the
edge. KEY leaving MAINT fails a changeover at work with cause INTERLOCK unless a WRITE of its is in flight: every station
of its hold becomes MIXED, and OPERATION_DONE is posted. -/
def Obligations.InputsFollowed : Prop :=
  (∀ (x : InputId) (level : Bool) (s : State), s.power = .running → (s.inputs.get x).raw ≠ level →
    s.changeover.state = .idle →
    let r := s.inputs.get x
    (r.checkTime ≠ 0 ∨ level = r.accepted →
      exec (.inputRawChange x level) s = .next (s.setInput x { r with raw := level, hold := 0 }))
    ∧ (r.checkTime = 0 → level ≠ r.accepted → r.mode = .both → exec (.inputRawChange x level) s = .next
        (post (.input x) (.inputChange level) (s.setInput x { r with raw := level, accepted := level, hold := 0 }))))
  ∧ (∀ (x : InputId) (s : State), s.power = .running → (s.inputs.get x).raw ≠ (s.inputs.get x).accepted →
      s.changeover.state = .idle →
      let r := s.inputs.get x
      let t := s.setInput x { r with accepted := r.raw }
      exec (.inputDebounceExpiry x) s = .next
        (if r.mode = .both ∨ (r.mode = .rise ∧ r.raw = true) ∨ (r.mode = .fall ∧ r.raw = false) then
          post (.input x) (.inputChange r.raw) t else t))
  ∧ (∀ (s : State) (st : Step), s.power = .running → s.inputs.key.accepted = true → s.inputs.key.raw = false →
      s.inputs.key.mode = .none → s.changeover.state = .applying → s.changeover.kind = some .changeover →
      s.changeover.step = some st → (s.link st.station).waiters = [] →
      (∀ x, (s.link st.station).inFlight = some x → x.owner = some .changeover → ∀ b o ws, x.request ≠ .write b o ws) →
      ∃ t f, exec (.inputDebounceExpiry .key) s = .next t ∧ t.inputs.key.accepted = false
        ∧ t.changeover.state = .failed ∧ t.changeover.failure = some f ∧ f.cause = .interlock
        ∧ f.station = some st.station ∧ (∀ i ∈ s.changeover.stations, (t.stn i).format = .mixed)
        ∧ (∀ i, i ∉ s.changeover.stations → (t.stn i).format = (s.stn i).format)
        ∧ t.changeover.stations = s.changeover.stations
        ∧ t.events = postEvent s.guardTime .controller
            (.operationDone .changeover .failed (s.changeover.target.getD 0) (some f)) s.events)

/-! ### The audit -/

/-- R122 to R126: when the pace timer expires with no check in progress and no sweep waiting, the first entry after the
cursor that may be checked, or the first of all when none after it may be, is checked (its station is ONLINE, and it is
not SUSPENDED, not NOT_APPLICABLE, and no FORMAT entry in DRIFT without a resolved image): it becomes the cursor, the
pace timer starts afresh, and on an idle link SUM goes out for its block and length, or the first READ of it where the
entry is of READ mode or the station's sums are unreliable; on an occupied link the check waits. With no entry to check
the timer just starts afresh. A station waiting for a sweep goes first: the head's next entry after the last one its
sweep has taken is checked under the same conditions of the entry, the head is marked started, and the cursor stays. A
head with no such entry is done: it leaves the queue, and the choice is made again; or, with its again flag set, its
sweep begins again from the station's first entry, the flag clear. -/
def Obligations.AuditPaces : Prop :=
  ∀ s : State, s.power = .running → s.stage = .guarding → s.sched.check = none → s.sched.paceTimer ≠ none →
    let eligible (e : AuditEntry) : Prop := e.state ≠ .suspended ∧ e.state ≠ .notApplicable
      ∧ ¬ (e.cls = some .format ∧ e.state = .drift ∧ e.resolved = none)
    let may (j : Nat) : Prop := ∃ e : AuditEntry, s.audit[j]? = some e ∧ eligible e ∧ (s.stn e.station).state = .online
    let after (j : Nat) : Prop := ∀ c, s.sched.cursor = some c → c < j
    let checking (k : Nat) (e : AuditEntry) (bySweep : Bool) (cursor : Option Nat) (queue : List Sweep) : Prop :=
      let reads : Prop := e.readMode = true ∨ (s.stn e.station).sumUnreliable = true
      let begun (phase : CheckPhase) (t : State) : Prop := exec .auditPaceExpiry s = .next t ∧ t.sched =
          { check := some { entry := k, station := e.station, phase := phase, got := [], bySweep := bySweep,
                            discard := false }
            paceTimer := some s.timing.auditPace
            sweeps := queue
            cursor := cursor }
        ∧ SameBut e.station s { t with sched := s.sched } ∧ t.events = s.events
      ((s.link e.station).holder = none → (s.link e.station).waiters = [] → (s.link e.station).inFlight = none →
        ∃ t, begun (if reads then .reading else .summing) t ∧ (t.link e.station).holder = some .audit
          ∧ (t.link e.station).inFlight = some
            { seq := (s.stn e.station).nextSeq,
              request := if reads then .read e.block 0 (min (s.stn e.station).wordsPerFrame e.length)
                else .sum e.block e.length,
              owner := some .audit, timeout := s.roster[e.station].replyTimeout })
      ∧ ((s.link e.station).holder ≠ none ∨ (s.link e.station).inFlight ≠ none →
          ∃ t, begun .waiting t ∧ t.stn e.station = s.stn e.station
            ∧ t.link e.station = { s.link e.station with waiters := (s.link e.station).waiters ++ [.audit] })
    (s.sched.sweeps = [] → (∀ j, ¬ may j) → exec .auditPaceExpiry s = .next
      { s with sched := { s.sched with paceTimer := some s.timing.auditPace } })
    ∧ (∀ (k : Nat) (e : AuditEntry), s.sched.sweeps = [] → s.audit[k]? = some e → may k →
        ((after k ∧ ∀ j, after j → j < k → ¬ may j) ∨ ((∀ j, after j → ¬ may j) ∧ ∀ j, j < k → ¬ may j)) →
        checking k e false (some k) [])
    ∧ (∀ (q : Sweep) (qs : List Sweep), s.sched.sweeps = q :: qs →
        let next (j : Nat) : Prop := ∃ e : AuditEntry, s.audit[j]? = some e ∧ e.station = q.station
          ∧ eligible e ∧ ∀ x, q.taken = some x → x < j
        (∀ (k : Nat) (e : AuditEntry), s.audit[k]? = some e → next k → (∀ j, j < k → ¬ next j) →
          (s.stn e.station).state = .online →
          checking k e true s.sched.cursor ({ q with started := true } :: qs))
        ∧ ((∀ j, ¬ next j) → exec .auditPaceExpiry s = exec .auditPaceExpiry { s with sched := { s.sched with
            sweeps :=
              if q.again = true then { q with started := true, again := false, taken := none } :: qs else qs } }))

/-! ### The parameter guard's arithmetic and the fingerprint -/

/-- R61: a STRICT request other than the current value is refused BAND, STEP or GRAIN by the first test it fails, in that
order; one that passes all three has the verdict PASS with itself as the value, and goes to the budget test (R66). An
absent step limit refuses nothing STEP. -/
def Obligations.StrictVerdict : Prop :=
  ∀ (p : Param) (r : Int) (now : Nat), p.clamp = false → r ≠ p.current →
    let lo := max (p.base - p.low) p.hmin
    let hi := min (p.base + p.high) p.hmax
    let far := ∃ n, p.step = some n ∧ (r < p.current - n ∨ p.current + n < r)
    (r < lo ∨ hi < r → p.verdict r now = .refused .band)
    ∧ (lo ≤ r → r ≤ hi → far → p.verdict r now = .refused .step)
    ∧ (lo ≤ r → r ≤ hi → ¬ far → ¬ (p.grain : Int) ∣ r - p.base → p.verdict r now = .refused .grain)
    ∧ (lo ≤ r → r ≤ hi → ¬ far → (p.grain : Int) ∣ r - p.base →
        p.verdict r now = if p.spent now = true then .refused .budget else .pass r)
    ∧ (p.step = none → p.verdict r now ≠ .refused .step)

/-- R66: a verdict of PASS or CLAMPED becomes REFUSED with BUDGET when the parameter has a budget of k changes and a
window that is open at that guard time with a count of k or more; every other verdict, and every other state of the
window, leaves it as the tests of R61 to R63 gave it, which do not look at the budget. -/
def Obligations.BudgetTest : Prop :=
  ∀ (p : Param) (r : Int) (now : Nat),
    let free := ({ p with budget := none } : Param).verdict r now
    let full := ∃ most minutes start count, p.budget = some (most, minutes) ∧ p.window = some (start, count)
      ∧ now < start + 60 * minutes ∧ most ≤ count
    ((∃ a, free = .pass a ∨ free = .clamped a) → full → p.verdict r now = .refused .budget)
    ∧ ((∀ a, free ≠ .pass a ∧ free ≠ .clamped a) → p.verdict r now = free)
    ∧ (¬ full → p.verdict r now = free)
    ∧ (r = p.current → p.verdict r now = .unchanged)
    ∧ (p.clamp = false → (r < max (p.base - p.low) p.hmin ∨ min (p.base + p.high) p.hmax < r) → r ≠ p.current →
        p.verdict r now = .refused .band)

/-- R62, R63: a CLAMP request other than the current value is brought into the target window of R60 and onto the grain
point toward the baseline, which can miss the window only on the baseline's side, and one grain corrects that. The result lies in the target window and on
the grain; the verdict is HELD when it is the current value, else PASS when it is the request, else CLAMPED; PASS and
CLAMPED go to the budget test and HELD does not; and no request is refused BAND, STEP or GRAIN. The hypotheses on the
parameter are what R59 says of every loaded one. -/
def Obligations.ClampLandsInTheTargetWindow : Prop :=
  ∀ (p : Param) (r : Int) (now : Nat), p.clamp = true → 1 ≤ p.grain → p.hmin ≤ p.base → p.base ≤ p.hmax →
    max (p.base - p.low) p.hmin ≤ p.current → p.current ≤ min (p.base + p.high) p.hmax →
    (p.grain : Int) ∣ p.current - p.base → r ≠ p.current →
    let lo := max (p.base - p.low) p.hmin
    let hi := min (p.base + p.high) p.hmax
    let tlo := max lo (match p.step with | some n => p.current - n | none => lo)
    let thi := min hi (match p.step with | some n => p.current + n | none => hi)
    let x := if r < tlo then tlo else if thi < r then thi else r
    let point := p.base + p.grain * (x - p.base).tdiv p.grain
    let a := if point < tlo then point + p.grain else if thi < point then point - p.grain else point
    (p.base ≤ x → p.base ≤ point ∧ point ≤ x ∧ x < point + p.grain)
      ∧ (x < p.base → x ≤ point ∧ point ≤ p.base ∧ point - p.grain < x)
      ∧ (point < tlo → p.base < tlo) ∧ (thi < point → thi < p.base)
      ∧ tlo ≤ a ∧ a ≤ thi ∧ (p.grain : Int) ∣ a - p.base
      ∧ (a = p.current → p.verdict r now = .held)
      ∧ (a ≠ p.current → a = r → p.verdict r now = if p.spent now = true then .refused .budget else .pass a)
      ∧ (a ≠ p.current → a ≠ r → p.verdict r now = if p.spent now = true then .refused .budget else .clamped a)
      ∧ (∀ why, p.verdict r now = .refused why → why = .budget)

/-- R58, and the encoding of R67 as its inverse: the value requested is decoded from one word, or from the high and the
low one, as the kind says; every pair of words decodes to a value in the kind's range; and a request equal to the current
value is UNCHANGED, with the current value as the one accepted. A value of the kind's range encodes into as many words as
the width, which decode to it, and the words that come encode again from their value. -/
def Obligations.ValuesEncodeAndDecode : Prop :=
  (∀ (p : Param) (w l : Word),
    let u : Int := if p.wide = true then 65536 * w.toNat + l.toNat else w.toNat
    (p.signed = false ∨ w.toNat ≤ 32767 → p.decode w l = u)
    ∧ (p.signed = true → 32768 ≤ w.toNat → p.decode w l = u - if p.wide = true then 4294967296 else 65536)
    ∧ kindMin p.wide p.signed ≤ p.decode w l ∧ p.decode w l ≤ kindMax p.wide p.signed
    ∧ (∀ now : Nat, p.decode w l = p.current → p.verdict (p.decode w l) now = .unchanged
        ∧ (p.verdict (p.decode w l) now).value p.current = p.current ∧ (p.verdict (p.decode w l) now).moves = false)
    ∧ p.encode (p.decode w l) = if p.wide = true then [w, l] else [w])
  ∧ (∀ (p : Param) (a : Int), kindMin p.wide p.signed ≤ a → a ≤ kindMax p.wide p.signed →
      (p.encode a).length = p.width ∧ p.decode ((p.encode a).getD 0 0) ((p.encode a).getD 1 0) = a)

/-- R116: a change of one word of a block changes its fingerprint, unless the word moves by exactly 65521 up or down; and
each sum lies in 0 to 65520. -/
def Obligations.FingerprintSeesOneWord : Prop :=
  (∀ (before after : List Word) (v w : Word), fingerprint (before ++ v :: after) = fingerprint (before ++ w :: after) ↔
    v = w ∨ v.toNat = w.toNat + 65521 ∨ w.toNat = v.toNat + 65521)
  ∧ (∀ ws : List Word, (fingerprint ws).1 ≤ 65520 ∧ (fingerprint ws).2 ≤ 65520)

/-! ### Invariants -/

/-- R1, R40, R52, R53, R111, R112, R117, R158, R168, R173, R175: from every state in which the settings and the tables are in
order, every step leads to one: a locked guard is in GUARDING, and RESTART's reply is on its way only with the lock flag
clear; guard time and the six timing values keep their ranges; a
station has one port; windows do not overlap and are at most 64; parameters stand in index order below 96 and share no
word; images have distinct ids below 160 and stand one behind another in the store; the audit list names a block at most
once and has at most 128 entries. -/
def Obligations.SettingsInvariant : Prop :=
  ∀ s t : State, SettingsOk s → step s = .next t → SettingsOk t

/-- R165: from every state in which no two events have the same source and kind, every event is one its source posts, and
every count is 1 to 255, every step leads to one; and such a queue never holds more than 71 events. -/
def Obligations.EventQueueInvariant : Prop :=
  (∀ s t : State, EventsOk s.events → step s = .next t → EventsOk t.events)
  ∧ ∀ es : List Event, EventsOk es → es.length ≤ 71

/-- R26, R28 to R32: from every state in which a station has one port and an inhibit output is released only for an
operation that holds the release, under a running limit timer of at most 1500 ms, on a port not in FAULT whose station is
ONLINE, every step leads to one. -/
def Obligations.ReleaseInvariant : Prop :=
  ∀ s t : State, PortMapOk s.portMap → ReleasesOk s → step s = .next t → PortMapOk t.portMap ∧ ReleasesOk t

/-- The three invariants hold right after reset. -/
def Obligations.ResetMeetsInvariants : Prop :=
  SettingsOk State.reset ∧ EventsOk State.reset.events ∧ PortMapOk State.reset.portMap ∧ ReleasesOk State.reset
end

