-- ==== Sys2Proof/Laws/State.lean ====
section
/-! SUPPORT. One lemma per field per update of a record of the state, and what each accessor reads after each update. -/

namespace Sys2Proof.Machine

open Sys2Proof

/-! ### modStn -/

@[simp] theorem State.modStn_power (s : State) (i : Station) (f : StationRec → StationRec) : (s.modStn i f).power = s.power := rfl
@[simp] theorem State.modStn_resetLevel (s : State) (i : Station) (f : StationRec → StationRec) : (s.modStn i f).resetLevel = s.resetLevel := rfl
@[simp] theorem State.modStn_resetHeld (s : State) (i : Station) (f : StationRec → StationRec) : (s.modStn i f).resetHeld = s.resetHeld := rfl
@[simp] theorem State.modStn_jumperField (s : State) (i : Station) (f : StationRec → StationRec) : (s.modStn i f).jumperField = s.jumperField := rfl
@[simp] theorem State.modStn_subSecond (s : State) (i : Station) (f : StationRec → StationRec) : (s.modStn i f).subSecond = s.subSecond := rfl
@[simp] theorem State.modStn_guardTime (s : State) (i : Station) (f : StationRec → StationRec) : (s.modStn i f).guardTime = s.guardTime := rfl
@[simp] theorem State.modStn_stage (s : State) (i : Station) (f : StationRec → StationRec) : (s.modStn i f).stage = s.stage := rfl
@[simp] theorem State.modStn_locked (s : State) (i : Station) (f : StationRec → StationRec) : (s.modStn i f).locked = s.locked := rfl
@[simp] theorem State.modStn_portMap (s : State) (i : Station) (f : StationRec → StationRec) : (s.modStn i f).portMap = s.portMap := rfl
@[simp] theorem State.modStn_roster (s : State) (i : Station) (f : StationRec → StationRec) : (s.modStn i f).roster = s.roster := rfl
@[simp] theorem State.modStn_links (s : State) (i : Station) (f : StationRec → StationRec) : (s.modStn i f).links = s.links := rfl
@[simp] theorem State.modStn_ports (s : State) (i : Station) (f : StationRec → StationRec) : (s.modStn i f).ports = s.ports := rfl
@[simp] theorem State.modStn_inputs (s : State) (i : Station) (f : StationRec → StationRec) : (s.modStn i f).inputs = s.inputs := rfl
@[simp] theorem State.modStn_timing (s : State) (i : Station) (f : StationRec → StationRec) : (s.modStn i f).timing = s.timing := rfl
@[simp] theorem State.modStn_windows (s : State) (i : Station) (f : StationRec → StationRec) : (s.modStn i f).windows = s.windows := rfl
@[simp] theorem State.modStn_params (s : State) (i : Station) (f : StationRec → StationRec) : (s.modStn i f).params = s.params := rfl
@[simp] theorem State.modStn_images (s : State) (i : Station) (f : StationRec → StationRec) : (s.modStn i f).images = s.images := rfl
@[simp] theorem State.modStn_audit (s : State) (i : Station) (f : StationRec → StationRec) : (s.modStn i f).audit = s.audit := rfl
@[simp] theorem State.modStn_sched (s : State) (i : Station) (f : StationRec → StationRec) : (s.modStn i f).sched = s.sched := rfl
@[simp] theorem State.modStn_recipes (s : State) (i : Station) (f : StationRec → StationRec) : (s.modStn i f).recipes = s.recipes := rfl
@[simp] theorem State.modStn_activeFormat (s : State) (i : Station) (f : StationRec → StationRec) : (s.modStn i f).activeFormat = s.activeFormat := rfl
@[simp] theorem State.modStn_changeover (s : State) (i : Station) (f : StationRec → StationRec) : (s.modStn i f).changeover = s.changeover := rfl
@[simp] theorem State.modStn_channels (s : State) (i : Station) (f : StationRec → StationRec) : (s.modStn i f).channels = s.channels := rfl
@[simp] theorem State.modStn_eng (s : State) (i : Station) (f : StationRec → StationRec) : (s.modStn i f).eng = s.eng := rfl
@[simp] theorem State.modStn_sup (s : State) (i : Station) (f : StationRec → StationRec) : (s.modStn i f).sup = s.sup := rfl
@[simp] theorem State.modStn_events (s : State) (i : Station) (f : StationRec → StationRec) : (s.modStn i f).events = s.events := rfl
@[simp] theorem State.modStn_holdoff (s : State) (i : Station) (f : StationRec → StationRec) : (s.modStn i f).holdoff = s.holdoff := rfl
@[simp] theorem State.modStn_pending (s : State) (i : Station) (f : StationRec → StationRec) : (s.modStn i f).pending = s.pending := rfl

/-! ### modLink -/

@[simp] theorem State.modLink_power (s : State) (i : Station) (f : LinkRec → LinkRec) : (s.modLink i f).power = s.power := rfl
@[simp] theorem State.modLink_resetLevel (s : State) (i : Station) (f : LinkRec → LinkRec) : (s.modLink i f).resetLevel = s.resetLevel := rfl
@[simp] theorem State.modLink_resetHeld (s : State) (i : Station) (f : LinkRec → LinkRec) : (s.modLink i f).resetHeld = s.resetHeld := rfl
@[simp] theorem State.modLink_jumperField (s : State) (i : Station) (f : LinkRec → LinkRec) : (s.modLink i f).jumperField = s.jumperField := rfl
@[simp] theorem State.modLink_subSecond (s : State) (i : Station) (f : LinkRec → LinkRec) : (s.modLink i f).subSecond = s.subSecond := rfl
@[simp] theorem State.modLink_guardTime (s : State) (i : Station) (f : LinkRec → LinkRec) : (s.modLink i f).guardTime = s.guardTime := rfl
@[simp] theorem State.modLink_stage (s : State) (i : Station) (f : LinkRec → LinkRec) : (s.modLink i f).stage = s.stage := rfl
@[simp] theorem State.modLink_locked (s : State) (i : Station) (f : LinkRec → LinkRec) : (s.modLink i f).locked = s.locked := rfl
@[simp] theorem State.modLink_portMap (s : State) (i : Station) (f : LinkRec → LinkRec) : (s.modLink i f).portMap = s.portMap := rfl
@[simp] theorem State.modLink_roster (s : State) (i : Station) (f : LinkRec → LinkRec) : (s.modLink i f).roster = s.roster := rfl
@[simp] theorem State.modLink_stations (s : State) (i : Station) (f : LinkRec → LinkRec) : (s.modLink i f).stations = s.stations := rfl
@[simp] theorem State.modLink_ports (s : State) (i : Station) (f : LinkRec → LinkRec) : (s.modLink i f).ports = s.ports := rfl
@[simp] theorem State.modLink_inputs (s : State) (i : Station) (f : LinkRec → LinkRec) : (s.modLink i f).inputs = s.inputs := rfl
@[simp] theorem State.modLink_timing (s : State) (i : Station) (f : LinkRec → LinkRec) : (s.modLink i f).timing = s.timing := rfl
@[simp] theorem State.modLink_windows (s : State) (i : Station) (f : LinkRec → LinkRec) : (s.modLink i f).windows = s.windows := rfl
@[simp] theorem State.modLink_params (s : State) (i : Station) (f : LinkRec → LinkRec) : (s.modLink i f).params = s.params := rfl
@[simp] theorem State.modLink_images (s : State) (i : Station) (f : LinkRec → LinkRec) : (s.modLink i f).images = s.images := rfl
@[simp] theorem State.modLink_audit (s : State) (i : Station) (f : LinkRec → LinkRec) : (s.modLink i f).audit = s.audit := rfl
@[simp] theorem State.modLink_sched (s : State) (i : Station) (f : LinkRec → LinkRec) : (s.modLink i f).sched = s.sched := rfl
@[simp] theorem State.modLink_recipes (s : State) (i : Station) (f : LinkRec → LinkRec) : (s.modLink i f).recipes = s.recipes := rfl
@[simp] theorem State.modLink_activeFormat (s : State) (i : Station) (f : LinkRec → LinkRec) : (s.modLink i f).activeFormat = s.activeFormat := rfl
@[simp] theorem State.modLink_changeover (s : State) (i : Station) (f : LinkRec → LinkRec) : (s.modLink i f).changeover = s.changeover := rfl
@[simp] theorem State.modLink_channels (s : State) (i : Station) (f : LinkRec → LinkRec) : (s.modLink i f).channels = s.channels := rfl
@[simp] theorem State.modLink_eng (s : State) (i : Station) (f : LinkRec → LinkRec) : (s.modLink i f).eng = s.eng := rfl
@[simp] theorem State.modLink_sup (s : State) (i : Station) (f : LinkRec → LinkRec) : (s.modLink i f).sup = s.sup := rfl
@[simp] theorem State.modLink_events (s : State) (i : Station) (f : LinkRec → LinkRec) : (s.modLink i f).events = s.events := rfl
@[simp] theorem State.modLink_holdoff (s : State) (i : Station) (f : LinkRec → LinkRec) : (s.modLink i f).holdoff = s.holdoff := rfl
@[simp] theorem State.modLink_pending (s : State) (i : Station) (f : LinkRec → LinkRec) : (s.modLink i f).pending = s.pending := rfl

/-! ### modPort -/

@[simp] theorem State.modPort_power (s : State) (p : Port) (f : InhibitPort → InhibitPort) : (s.modPort p f).power = s.power := rfl
@[simp] theorem State.modPort_resetLevel (s : State) (p : Port) (f : InhibitPort → InhibitPort) : (s.modPort p f).resetLevel = s.resetLevel := rfl
@[simp] theorem State.modPort_resetHeld (s : State) (p : Port) (f : InhibitPort → InhibitPort) : (s.modPort p f).resetHeld = s.resetHeld := rfl
@[simp] theorem State.modPort_jumperField (s : State) (p : Port) (f : InhibitPort → InhibitPort) : (s.modPort p f).jumperField = s.jumperField := rfl
@[simp] theorem State.modPort_subSecond (s : State) (p : Port) (f : InhibitPort → InhibitPort) : (s.modPort p f).subSecond = s.subSecond := rfl
@[simp] theorem State.modPort_guardTime (s : State) (p : Port) (f : InhibitPort → InhibitPort) : (s.modPort p f).guardTime = s.guardTime := rfl
@[simp] theorem State.modPort_stage (s : State) (p : Port) (f : InhibitPort → InhibitPort) : (s.modPort p f).stage = s.stage := rfl
@[simp] theorem State.modPort_locked (s : State) (p : Port) (f : InhibitPort → InhibitPort) : (s.modPort p f).locked = s.locked := rfl
@[simp] theorem State.modPort_portMap (s : State) (p : Port) (f : InhibitPort → InhibitPort) : (s.modPort p f).portMap = s.portMap := rfl
@[simp] theorem State.modPort_roster (s : State) (p : Port) (f : InhibitPort → InhibitPort) : (s.modPort p f).roster = s.roster := rfl
@[simp] theorem State.modPort_stations (s : State) (p : Port) (f : InhibitPort → InhibitPort) : (s.modPort p f).stations = s.stations := rfl
@[simp] theorem State.modPort_links (s : State) (p : Port) (f : InhibitPort → InhibitPort) : (s.modPort p f).links = s.links := rfl
@[simp] theorem State.modPort_inputs (s : State) (p : Port) (f : InhibitPort → InhibitPort) : (s.modPort p f).inputs = s.inputs := rfl
@[simp] theorem State.modPort_timing (s : State) (p : Port) (f : InhibitPort → InhibitPort) : (s.modPort p f).timing = s.timing := rfl
@[simp] theorem State.modPort_windows (s : State) (p : Port) (f : InhibitPort → InhibitPort) : (s.modPort p f).windows = s.windows := rfl
@[simp] theorem State.modPort_params (s : State) (p : Port) (f : InhibitPort → InhibitPort) : (s.modPort p f).params = s.params := rfl
@[simp] theorem State.modPort_images (s : State) (p : Port) (f : InhibitPort → InhibitPort) : (s.modPort p f).images = s.images := rfl
@[simp] theorem State.modPort_audit (s : State) (p : Port) (f : InhibitPort → InhibitPort) : (s.modPort p f).audit = s.audit := rfl
@[simp] theorem State.modPort_sched (s : State) (p : Port) (f : InhibitPort → InhibitPort) : (s.modPort p f).sched = s.sched := rfl
@[simp] theorem State.modPort_recipes (s : State) (p : Port) (f : InhibitPort → InhibitPort) : (s.modPort p f).recipes = s.recipes := rfl
@[simp] theorem State.modPort_activeFormat (s : State) (p : Port) (f : InhibitPort → InhibitPort) : (s.modPort p f).activeFormat = s.activeFormat := rfl
@[simp] theorem State.modPort_changeover (s : State) (p : Port) (f : InhibitPort → InhibitPort) : (s.modPort p f).changeover = s.changeover := rfl
@[simp] theorem State.modPort_channels (s : State) (p : Port) (f : InhibitPort → InhibitPort) : (s.modPort p f).channels = s.channels := rfl
@[simp] theorem State.modPort_eng (s : State) (p : Port) (f : InhibitPort → InhibitPort) : (s.modPort p f).eng = s.eng := rfl
@[simp] theorem State.modPort_sup (s : State) (p : Port) (f : InhibitPort → InhibitPort) : (s.modPort p f).sup = s.sup := rfl
@[simp] theorem State.modPort_events (s : State) (p : Port) (f : InhibitPort → InhibitPort) : (s.modPort p f).events = s.events := rfl
@[simp] theorem State.modPort_holdoff (s : State) (p : Port) (f : InhibitPort → InhibitPort) : (s.modPort p f).holdoff = s.holdoff := rfl
@[simp] theorem State.modPort_pending (s : State) (p : Port) (f : InhibitPort → InhibitPort) : (s.modPort p f).pending = s.pending := rfl

/-! ### modEng -/

@[simp] theorem State.modEng_power (s : State) (e : EngId) (f : EngPort → EngPort) : (s.modEng e f).power = s.power := rfl
@[simp] theorem State.modEng_resetLevel (s : State) (e : EngId) (f : EngPort → EngPort) : (s.modEng e f).resetLevel = s.resetLevel := rfl
@[simp] theorem State.modEng_resetHeld (s : State) (e : EngId) (f : EngPort → EngPort) : (s.modEng e f).resetHeld = s.resetHeld := rfl
@[simp] theorem State.modEng_jumperField (s : State) (e : EngId) (f : EngPort → EngPort) : (s.modEng e f).jumperField = s.jumperField := rfl
@[simp] theorem State.modEng_subSecond (s : State) (e : EngId) (f : EngPort → EngPort) : (s.modEng e f).subSecond = s.subSecond := rfl
@[simp] theorem State.modEng_guardTime (s : State) (e : EngId) (f : EngPort → EngPort) : (s.modEng e f).guardTime = s.guardTime := rfl
@[simp] theorem State.modEng_stage (s : State) (e : EngId) (f : EngPort → EngPort) : (s.modEng e f).stage = s.stage := rfl
@[simp] theorem State.modEng_locked (s : State) (e : EngId) (f : EngPort → EngPort) : (s.modEng e f).locked = s.locked := rfl
@[simp] theorem State.modEng_portMap (s : State) (e : EngId) (f : EngPort → EngPort) : (s.modEng e f).portMap = s.portMap := rfl
@[simp] theorem State.modEng_roster (s : State) (e : EngId) (f : EngPort → EngPort) : (s.modEng e f).roster = s.roster := rfl
@[simp] theorem State.modEng_stations (s : State) (e : EngId) (f : EngPort → EngPort) : (s.modEng e f).stations = s.stations := rfl
@[simp] theorem State.modEng_links (s : State) (e : EngId) (f : EngPort → EngPort) : (s.modEng e f).links = s.links := rfl
@[simp] theorem State.modEng_ports (s : State) (e : EngId) (f : EngPort → EngPort) : (s.modEng e f).ports = s.ports := rfl
@[simp] theorem State.modEng_inputs (s : State) (e : EngId) (f : EngPort → EngPort) : (s.modEng e f).inputs = s.inputs := rfl
@[simp] theorem State.modEng_timing (s : State) (e : EngId) (f : EngPort → EngPort) : (s.modEng e f).timing = s.timing := rfl
@[simp] theorem State.modEng_windows (s : State) (e : EngId) (f : EngPort → EngPort) : (s.modEng e f).windows = s.windows := rfl
@[simp] theorem State.modEng_params (s : State) (e : EngId) (f : EngPort → EngPort) : (s.modEng e f).params = s.params := rfl
@[simp] theorem State.modEng_images (s : State) (e : EngId) (f : EngPort → EngPort) : (s.modEng e f).images = s.images := rfl
@[simp] theorem State.modEng_audit (s : State) (e : EngId) (f : EngPort → EngPort) : (s.modEng e f).audit = s.audit := rfl
@[simp] theorem State.modEng_sched (s : State) (e : EngId) (f : EngPort → EngPort) : (s.modEng e f).sched = s.sched := rfl
@[simp] theorem State.modEng_recipes (s : State) (e : EngId) (f : EngPort → EngPort) : (s.modEng e f).recipes = s.recipes := rfl
@[simp] theorem State.modEng_activeFormat (s : State) (e : EngId) (f : EngPort → EngPort) : (s.modEng e f).activeFormat = s.activeFormat := rfl
@[simp] theorem State.modEng_changeover (s : State) (e : EngId) (f : EngPort → EngPort) : (s.modEng e f).changeover = s.changeover := rfl
@[simp] theorem State.modEng_channels (s : State) (e : EngId) (f : EngPort → EngPort) : (s.modEng e f).channels = s.channels := rfl
@[simp] theorem State.modEng_sup (s : State) (e : EngId) (f : EngPort → EngPort) : (s.modEng e f).sup = s.sup := rfl
@[simp] theorem State.modEng_events (s : State) (e : EngId) (f : EngPort → EngPort) : (s.modEng e f).events = s.events := rfl
@[simp] theorem State.modEng_holdoff (s : State) (e : EngId) (f : EngPort → EngPort) : (s.modEng e f).holdoff = s.holdoff := rfl
@[simp] theorem State.modEng_pending (s : State) (e : EngId) (f : EngPort → EngPort) : (s.modEng e f).pending = s.pending := rfl

/-! ### setChan -/

@[simp] theorem State.setChan_power (s : State) (c : ChanId) (x : Channel) : (s.setChan c x).power = s.power := rfl
@[simp] theorem State.setChan_resetLevel (s : State) (c : ChanId) (x : Channel) : (s.setChan c x).resetLevel = s.resetLevel := rfl
@[simp] theorem State.setChan_resetHeld (s : State) (c : ChanId) (x : Channel) : (s.setChan c x).resetHeld = s.resetHeld := rfl
@[simp] theorem State.setChan_jumperField (s : State) (c : ChanId) (x : Channel) : (s.setChan c x).jumperField = s.jumperField := rfl
@[simp] theorem State.setChan_subSecond (s : State) (c : ChanId) (x : Channel) : (s.setChan c x).subSecond = s.subSecond := rfl
@[simp] theorem State.setChan_guardTime (s : State) (c : ChanId) (x : Channel) : (s.setChan c x).guardTime = s.guardTime := rfl
@[simp] theorem State.setChan_stage (s : State) (c : ChanId) (x : Channel) : (s.setChan c x).stage = s.stage := rfl
@[simp] theorem State.setChan_locked (s : State) (c : ChanId) (x : Channel) : (s.setChan c x).locked = s.locked := rfl
@[simp] theorem State.setChan_portMap (s : State) (c : ChanId) (x : Channel) : (s.setChan c x).portMap = s.portMap := rfl
@[simp] theorem State.setChan_roster (s : State) (c : ChanId) (x : Channel) : (s.setChan c x).roster = s.roster := rfl
@[simp] theorem State.setChan_stations (s : State) (c : ChanId) (x : Channel) : (s.setChan c x).stations = s.stations := rfl
@[simp] theorem State.setChan_links (s : State) (c : ChanId) (x : Channel) : (s.setChan c x).links = s.links := rfl
@[simp] theorem State.setChan_ports (s : State) (c : ChanId) (x : Channel) : (s.setChan c x).ports = s.ports := rfl
@[simp] theorem State.setChan_inputs (s : State) (c : ChanId) (x : Channel) : (s.setChan c x).inputs = s.inputs := rfl
@[simp] theorem State.setChan_timing (s : State) (c : ChanId) (x : Channel) : (s.setChan c x).timing = s.timing := rfl
@[simp] theorem State.setChan_windows (s : State) (c : ChanId) (x : Channel) : (s.setChan c x).windows = s.windows := rfl
@[simp] theorem State.setChan_params (s : State) (c : ChanId) (x : Channel) : (s.setChan c x).params = s.params := rfl
@[simp] theorem State.setChan_images (s : State) (c : ChanId) (x : Channel) : (s.setChan c x).images = s.images := rfl
@[simp] theorem State.setChan_audit (s : State) (c : ChanId) (x : Channel) : (s.setChan c x).audit = s.audit := rfl
@[simp] theorem State.setChan_sched (s : State) (c : ChanId) (x : Channel) : (s.setChan c x).sched = s.sched := rfl
@[simp] theorem State.setChan_recipes (s : State) (c : ChanId) (x : Channel) : (s.setChan c x).recipes = s.recipes := rfl
@[simp] theorem State.setChan_activeFormat (s : State) (c : ChanId) (x : Channel) : (s.setChan c x).activeFormat = s.activeFormat := rfl
@[simp] theorem State.setChan_changeover (s : State) (c : ChanId) (x : Channel) : (s.setChan c x).changeover = s.changeover := rfl
@[simp] theorem State.setChan_eng (s : State) (c : ChanId) (x : Channel) : (s.setChan c x).eng = s.eng := rfl
@[simp] theorem State.setChan_sup (s : State) (c : ChanId) (x : Channel) : (s.setChan c x).sup = s.sup := rfl
@[simp] theorem State.setChan_events (s : State) (c : ChanId) (x : Channel) : (s.setChan c x).events = s.events := rfl
@[simp] theorem State.setChan_holdoff (s : State) (c : ChanId) (x : Channel) : (s.setChan c x).holdoff = s.holdoff := rfl
@[simp] theorem State.setChan_pending (s : State) (c : ChanId) (x : Channel) : (s.setChan c x).pending = s.pending := rfl

/-! ### setInput -/

@[simp] theorem State.setInput_power (s : State) (x : InputId) (r : InputRec) : (s.setInput x r).power = s.power := rfl
@[simp] theorem State.setInput_resetLevel (s : State) (x : InputId) (r : InputRec) : (s.setInput x r).resetLevel = s.resetLevel := rfl
@[simp] theorem State.setInput_resetHeld (s : State) (x : InputId) (r : InputRec) : (s.setInput x r).resetHeld = s.resetHeld := rfl
@[simp] theorem State.setInput_jumperField (s : State) (x : InputId) (r : InputRec) : (s.setInput x r).jumperField = s.jumperField := rfl
@[simp] theorem State.setInput_subSecond (s : State) (x : InputId) (r : InputRec) : (s.setInput x r).subSecond = s.subSecond := rfl
@[simp] theorem State.setInput_guardTime (s : State) (x : InputId) (r : InputRec) : (s.setInput x r).guardTime = s.guardTime := rfl
@[simp] theorem State.setInput_stage (s : State) (x : InputId) (r : InputRec) : (s.setInput x r).stage = s.stage := rfl
@[simp] theorem State.setInput_locked (s : State) (x : InputId) (r : InputRec) : (s.setInput x r).locked = s.locked := rfl
@[simp] theorem State.setInput_portMap (s : State) (x : InputId) (r : InputRec) : (s.setInput x r).portMap = s.portMap := rfl
@[simp] theorem State.setInput_roster (s : State) (x : InputId) (r : InputRec) : (s.setInput x r).roster = s.roster := rfl
@[simp] theorem State.setInput_stations (s : State) (x : InputId) (r : InputRec) : (s.setInput x r).stations = s.stations := rfl
@[simp] theorem State.setInput_links (s : State) (x : InputId) (r : InputRec) : (s.setInput x r).links = s.links := rfl
@[simp] theorem State.setInput_ports (s : State) (x : InputId) (r : InputRec) : (s.setInput x r).ports = s.ports := rfl
@[simp] theorem State.setInput_timing (s : State) (x : InputId) (r : InputRec) : (s.setInput x r).timing = s.timing := rfl
@[simp] theorem State.setInput_windows (s : State) (x : InputId) (r : InputRec) : (s.setInput x r).windows = s.windows := rfl
@[simp] theorem State.setInput_params (s : State) (x : InputId) (r : InputRec) : (s.setInput x r).params = s.params := rfl
@[simp] theorem State.setInput_images (s : State) (x : InputId) (r : InputRec) : (s.setInput x r).images = s.images := rfl
@[simp] theorem State.setInput_audit (s : State) (x : InputId) (r : InputRec) : (s.setInput x r).audit = s.audit := rfl
@[simp] theorem State.setInput_sched (s : State) (x : InputId) (r : InputRec) : (s.setInput x r).sched = s.sched := rfl
@[simp] theorem State.setInput_recipes (s : State) (x : InputId) (r : InputRec) : (s.setInput x r).recipes = s.recipes := rfl
@[simp] theorem State.setInput_activeFormat (s : State) (x : InputId) (r : InputRec) : (s.setInput x r).activeFormat = s.activeFormat := rfl
@[simp] theorem State.setInput_changeover (s : State) (x : InputId) (r : InputRec) : (s.setInput x r).changeover = s.changeover := rfl
@[simp] theorem State.setInput_channels (s : State) (x : InputId) (r : InputRec) : (s.setInput x r).channels = s.channels := rfl
@[simp] theorem State.setInput_eng (s : State) (x : InputId) (r : InputRec) : (s.setInput x r).eng = s.eng := rfl
@[simp] theorem State.setInput_sup (s : State) (x : InputId) (r : InputRec) : (s.setInput x r).sup = s.sup := rfl
@[simp] theorem State.setInput_events (s : State) (x : InputId) (r : InputRec) : (s.setInput x r).events = s.events := rfl
@[simp] theorem State.setInput_holdoff (s : State) (x : InputId) (r : InputRec) : (s.setInput x r).holdoff = s.holdoff := rfl
@[simp] theorem State.setInput_pending (s : State) (x : InputId) (r : InputRec) : (s.setInput x r).pending = s.pending := rfl

/-! ### modEntry -/

@[simp] theorem State.modEntry_power (s : State) (k : Nat) (f : AuditEntry → AuditEntry) : (s.modEntry k f).power = s.power := rfl
@[simp] theorem State.modEntry_resetLevel (s : State) (k : Nat) (f : AuditEntry → AuditEntry) : (s.modEntry k f).resetLevel = s.resetLevel := rfl
@[simp] theorem State.modEntry_resetHeld (s : State) (k : Nat) (f : AuditEntry → AuditEntry) : (s.modEntry k f).resetHeld = s.resetHeld := rfl
@[simp] theorem State.modEntry_jumperField (s : State) (k : Nat) (f : AuditEntry → AuditEntry) : (s.modEntry k f).jumperField = s.jumperField := rfl
@[simp] theorem State.modEntry_subSecond (s : State) (k : Nat) (f : AuditEntry → AuditEntry) : (s.modEntry k f).subSecond = s.subSecond := rfl
@[simp] theorem State.modEntry_guardTime (s : State) (k : Nat) (f : AuditEntry → AuditEntry) : (s.modEntry k f).guardTime = s.guardTime := rfl
@[simp] theorem State.modEntry_stage (s : State) (k : Nat) (f : AuditEntry → AuditEntry) : (s.modEntry k f).stage = s.stage := rfl
@[simp] theorem State.modEntry_locked (s : State) (k : Nat) (f : AuditEntry → AuditEntry) : (s.modEntry k f).locked = s.locked := rfl
@[simp] theorem State.modEntry_portMap (s : State) (k : Nat) (f : AuditEntry → AuditEntry) : (s.modEntry k f).portMap = s.portMap := rfl
@[simp] theorem State.modEntry_roster (s : State) (k : Nat) (f : AuditEntry → AuditEntry) : (s.modEntry k f).roster = s.roster := rfl
@[simp] theorem State.modEntry_stations (s : State) (k : Nat) (f : AuditEntry → AuditEntry) : (s.modEntry k f).stations = s.stations := rfl
@[simp] theorem State.modEntry_links (s : State) (k : Nat) (f : AuditEntry → AuditEntry) : (s.modEntry k f).links = s.links := rfl
@[simp] theorem State.modEntry_ports (s : State) (k : Nat) (f : AuditEntry → AuditEntry) : (s.modEntry k f).ports = s.ports := rfl
@[simp] theorem State.modEntry_inputs (s : State) (k : Nat) (f : AuditEntry → AuditEntry) : (s.modEntry k f).inputs = s.inputs := rfl
@[simp] theorem State.modEntry_timing (s : State) (k : Nat) (f : AuditEntry → AuditEntry) : (s.modEntry k f).timing = s.timing := rfl
@[simp] theorem State.modEntry_windows (s : State) (k : Nat) (f : AuditEntry → AuditEntry) : (s.modEntry k f).windows = s.windows := rfl
@[simp] theorem State.modEntry_params (s : State) (k : Nat) (f : AuditEntry → AuditEntry) : (s.modEntry k f).params = s.params := rfl
@[simp] theorem State.modEntry_images (s : State) (k : Nat) (f : AuditEntry → AuditEntry) : (s.modEntry k f).images = s.images := rfl
@[simp] theorem State.modEntry_sched (s : State) (k : Nat) (f : AuditEntry → AuditEntry) : (s.modEntry k f).sched = s.sched := rfl
@[simp] theorem State.modEntry_recipes (s : State) (k : Nat) (f : AuditEntry → AuditEntry) : (s.modEntry k f).recipes = s.recipes := rfl
@[simp] theorem State.modEntry_activeFormat (s : State) (k : Nat) (f : AuditEntry → AuditEntry) : (s.modEntry k f).activeFormat = s.activeFormat := rfl
@[simp] theorem State.modEntry_changeover (s : State) (k : Nat) (f : AuditEntry → AuditEntry) : (s.modEntry k f).changeover = s.changeover := rfl
@[simp] theorem State.modEntry_channels (s : State) (k : Nat) (f : AuditEntry → AuditEntry) : (s.modEntry k f).channels = s.channels := rfl
@[simp] theorem State.modEntry_eng (s : State) (k : Nat) (f : AuditEntry → AuditEntry) : (s.modEntry k f).eng = s.eng := rfl
@[simp] theorem State.modEntry_sup (s : State) (k : Nat) (f : AuditEntry → AuditEntry) : (s.modEntry k f).sup = s.sup := rfl
@[simp] theorem State.modEntry_events (s : State) (k : Nat) (f : AuditEntry → AuditEntry) : (s.modEntry k f).events = s.events := rfl
@[simp] theorem State.modEntry_holdoff (s : State) (k : Nat) (f : AuditEntry → AuditEntry) : (s.modEntry k f).holdoff = s.holdoff := rfl
@[simp] theorem State.modEntry_pending (s : State) (k : Nat) (f : AuditEntry → AuditEntry) : (s.modEntry k f).pending = s.pending := rfl

/-! ### post -/

@[simp] theorem post_power (s : State) (src : Source) (d : Detail) : (post src d s).power = s.power := rfl
@[simp] theorem post_resetLevel (s : State) (src : Source) (d : Detail) : (post src d s).resetLevel = s.resetLevel := rfl
@[simp] theorem post_resetHeld (s : State) (src : Source) (d : Detail) : (post src d s).resetHeld = s.resetHeld := rfl
@[simp] theorem post_jumperField (s : State) (src : Source) (d : Detail) : (post src d s).jumperField = s.jumperField := rfl
@[simp] theorem post_subSecond (s : State) (src : Source) (d : Detail) : (post src d s).subSecond = s.subSecond := rfl
@[simp] theorem post_guardTime (s : State) (src : Source) (d : Detail) : (post src d s).guardTime = s.guardTime := rfl
@[simp] theorem post_stage (s : State) (src : Source) (d : Detail) : (post src d s).stage = s.stage := rfl
@[simp] theorem post_locked (s : State) (src : Source) (d : Detail) : (post src d s).locked = s.locked := rfl
@[simp] theorem post_portMap (s : State) (src : Source) (d : Detail) : (post src d s).portMap = s.portMap := rfl
@[simp] theorem post_roster (s : State) (src : Source) (d : Detail) : (post src d s).roster = s.roster := rfl
@[simp] theorem post_stations (s : State) (src : Source) (d : Detail) : (post src d s).stations = s.stations := rfl
@[simp] theorem post_links (s : State) (src : Source) (d : Detail) : (post src d s).links = s.links := rfl
@[simp] theorem post_ports (s : State) (src : Source) (d : Detail) : (post src d s).ports = s.ports := rfl
@[simp] theorem post_inputs (s : State) (src : Source) (d : Detail) : (post src d s).inputs = s.inputs := rfl
@[simp] theorem post_timing (s : State) (src : Source) (d : Detail) : (post src d s).timing = s.timing := rfl
@[simp] theorem post_windows (s : State) (src : Source) (d : Detail) : (post src d s).windows = s.windows := rfl
@[simp] theorem post_params (s : State) (src : Source) (d : Detail) : (post src d s).params = s.params := rfl
@[simp] theorem post_images (s : State) (src : Source) (d : Detail) : (post src d s).images = s.images := rfl
@[simp] theorem post_audit (s : State) (src : Source) (d : Detail) : (post src d s).audit = s.audit := rfl
@[simp] theorem post_sched (s : State) (src : Source) (d : Detail) : (post src d s).sched = s.sched := rfl
@[simp] theorem post_recipes (s : State) (src : Source) (d : Detail) : (post src d s).recipes = s.recipes := rfl
@[simp] theorem post_activeFormat (s : State) (src : Source) (d : Detail) : (post src d s).activeFormat = s.activeFormat := rfl
@[simp] theorem post_changeover (s : State) (src : Source) (d : Detail) : (post src d s).changeover = s.changeover := rfl
@[simp] theorem post_channels (s : State) (src : Source) (d : Detail) : (post src d s).channels = s.channels := rfl
@[simp] theorem post_eng (s : State) (src : Source) (d : Detail) : (post src d s).eng = s.eng := rfl
@[simp] theorem post_sup (s : State) (src : Source) (d : Detail) : (post src d s).sup = s.sup := rfl
@[simp] theorem post_holdoff (s : State) (src : Source) (d : Detail) : (post src d s).holdoff = s.holdoff := rfl
@[simp] theorem post_pending (s : State) (src : Source) (d : Detail) : (post src d s).pending = s.pending := rfl

/-! ### modCheck -/

@[simp] theorem modCheck_power (s : State) (f : Check → Check) : (modCheck f s).power = s.power := rfl
@[simp] theorem modCheck_resetLevel (s : State) (f : Check → Check) : (modCheck f s).resetLevel = s.resetLevel := rfl
@[simp] theorem modCheck_resetHeld (s : State) (f : Check → Check) : (modCheck f s).resetHeld = s.resetHeld := rfl
@[simp] theorem modCheck_jumperField (s : State) (f : Check → Check) : (modCheck f s).jumperField = s.jumperField := rfl
@[simp] theorem modCheck_subSecond (s : State) (f : Check → Check) : (modCheck f s).subSecond = s.subSecond := rfl
@[simp] theorem modCheck_guardTime (s : State) (f : Check → Check) : (modCheck f s).guardTime = s.guardTime := rfl
@[simp] theorem modCheck_stage (s : State) (f : Check → Check) : (modCheck f s).stage = s.stage := rfl
@[simp] theorem modCheck_locked (s : State) (f : Check → Check) : (modCheck f s).locked = s.locked := rfl
@[simp] theorem modCheck_portMap (s : State) (f : Check → Check) : (modCheck f s).portMap = s.portMap := rfl
@[simp] theorem modCheck_roster (s : State) (f : Check → Check) : (modCheck f s).roster = s.roster := rfl
@[simp] theorem modCheck_stations (s : State) (f : Check → Check) : (modCheck f s).stations = s.stations := rfl
@[simp] theorem modCheck_links (s : State) (f : Check → Check) : (modCheck f s).links = s.links := rfl
@[simp] theorem modCheck_ports (s : State) (f : Check → Check) : (modCheck f s).ports = s.ports := rfl
@[simp] theorem modCheck_inputs (s : State) (f : Check → Check) : (modCheck f s).inputs = s.inputs := rfl
@[simp] theorem modCheck_timing (s : State) (f : Check → Check) : (modCheck f s).timing = s.timing := rfl
@[simp] theorem modCheck_windows (s : State) (f : Check → Check) : (modCheck f s).windows = s.windows := rfl
@[simp] theorem modCheck_params (s : State) (f : Check → Check) : (modCheck f s).params = s.params := rfl
@[simp] theorem modCheck_images (s : State) (f : Check → Check) : (modCheck f s).images = s.images := rfl
@[simp] theorem modCheck_audit (s : State) (f : Check → Check) : (modCheck f s).audit = s.audit := rfl
@[simp] theorem modCheck_recipes (s : State) (f : Check → Check) : (modCheck f s).recipes = s.recipes := rfl
@[simp] theorem modCheck_activeFormat (s : State) (f : Check → Check) : (modCheck f s).activeFormat = s.activeFormat := rfl
@[simp] theorem modCheck_changeover (s : State) (f : Check → Check) : (modCheck f s).changeover = s.changeover := rfl
@[simp] theorem modCheck_channels (s : State) (f : Check → Check) : (modCheck f s).channels = s.channels := rfl
@[simp] theorem modCheck_eng (s : State) (f : Check → Check) : (modCheck f s).eng = s.eng := rfl
@[simp] theorem modCheck_sup (s : State) (f : Check → Check) : (modCheck f s).sup = s.sup := rfl
@[simp] theorem modCheck_events (s : State) (f : Check → Check) : (modCheck f s).events = s.events := rfl
@[simp] theorem modCheck_holdoff (s : State) (f : Check → Check) : (modCheck f s).holdoff = s.holdoff := rfl
@[simp] theorem modCheck_pending (s : State) (f : Check → Check) : (modCheck f s).pending = s.pending := rfl

/-! ### modCh -/

@[simp] theorem modCh_power (s : State) (f : Changeover → Changeover) : (modCh f s).power = s.power := rfl
@[simp] theorem modCh_resetLevel (s : State) (f : Changeover → Changeover) : (modCh f s).resetLevel = s.resetLevel := rfl
@[simp] theorem modCh_resetHeld (s : State) (f : Changeover → Changeover) : (modCh f s).resetHeld = s.resetHeld := rfl
@[simp] theorem modCh_jumperField (s : State) (f : Changeover → Changeover) : (modCh f s).jumperField = s.jumperField := rfl
@[simp] theorem modCh_subSecond (s : State) (f : Changeover → Changeover) : (modCh f s).subSecond = s.subSecond := rfl
@[simp] theorem modCh_guardTime (s : State) (f : Changeover → Changeover) : (modCh f s).guardTime = s.guardTime := rfl
@[simp] theorem modCh_stage (s : State) (f : Changeover → Changeover) : (modCh f s).stage = s.stage := rfl
@[simp] theorem modCh_locked (s : State) (f : Changeover → Changeover) : (modCh f s).locked = s.locked := rfl
@[simp] theorem modCh_portMap (s : State) (f : Changeover → Changeover) : (modCh f s).portMap = s.portMap := rfl
@[simp] theorem modCh_roster (s : State) (f : Changeover → Changeover) : (modCh f s).roster = s.roster := rfl
@[simp] theorem modCh_stations (s : State) (f : Changeover → Changeover) : (modCh f s).stations = s.stations := rfl
@[simp] theorem modCh_links (s : State) (f : Changeover → Changeover) : (modCh f s).links = s.links := rfl
@[simp] theorem modCh_ports (s : State) (f : Changeover → Changeover) : (modCh f s).ports = s.ports := rfl
@[simp] theorem modCh_inputs (s : State) (f : Changeover → Changeover) : (modCh f s).inputs = s.inputs := rfl
@[simp] theorem modCh_timing (s : State) (f : Changeover → Changeover) : (modCh f s).timing = s.timing := rfl
@[simp] theorem modCh_windows (s : State) (f : Changeover → Changeover) : (modCh f s).windows = s.windows := rfl
@[simp] theorem modCh_params (s : State) (f : Changeover → Changeover) : (modCh f s).params = s.params := rfl
@[simp] theorem modCh_images (s : State) (f : Changeover → Changeover) : (modCh f s).images = s.images := rfl
@[simp] theorem modCh_audit (s : State) (f : Changeover → Changeover) : (modCh f s).audit = s.audit := rfl
@[simp] theorem modCh_sched (s : State) (f : Changeover → Changeover) : (modCh f s).sched = s.sched := rfl
@[simp] theorem modCh_recipes (s : State) (f : Changeover → Changeover) : (modCh f s).recipes = s.recipes := rfl
@[simp] theorem modCh_activeFormat (s : State) (f : Changeover → Changeover) : (modCh f s).activeFormat = s.activeFormat := rfl
@[simp] theorem modCh_channels (s : State) (f : Changeover → Changeover) : (modCh f s).channels = s.channels := rfl
@[simp] theorem modCh_eng (s : State) (f : Changeover → Changeover) : (modCh f s).eng = s.eng := rfl
@[simp] theorem modCh_sup (s : State) (f : Changeover → Changeover) : (modCh f s).sup = s.sup := rfl
@[simp] theorem modCh_events (s : State) (f : Changeover → Changeover) : (modCh f s).events = s.events := rfl
@[simp] theorem modCh_holdoff (s : State) (f : Changeover → Changeover) : (modCh f s).holdoff = s.holdoff := rfl
@[simp] theorem modCh_pending (s : State) (f : Changeover → Changeover) : (modCh f s).pending = s.pending := rfl

/-! ### Accessors -/

@[simp] theorem State.modStn_link (s : State) (i : Station) (f : StationRec → StationRec) (j : Station) : (s.modStn i f).link j = s.link j := rfl
@[simp] theorem State.modStn_port (s : State) (i : Station) (f : StationRec → StationRec) (q : Port) : (s.modStn i f).port q = s.port q := rfl
@[simp] theorem State.modStn_engp (s : State) (i : Station) (f : StationRec → StationRec) (a : EngId) : (s.modStn i f).engp a = s.engp a := rfl
@[simp] theorem State.modStn_chan (s : State) (i : Station) (f : StationRec → StationRec) (b : ChanId) : (s.modStn i f).chan b = s.chan b := rfl
@[simp] theorem State.modStn_portOf (s : State) (i : Station) (f : StationRec → StationRec) (j : Station) : (s.modStn i f).portOf j = s.portOf j := rfl
@[simp] theorem State.modStn_mapped (s : State) (i : Station) (f : StationRec → StationRec) (j : Station) : (s.modStn i f).mapped j = s.mapped j := rfl
@[simp] theorem State.modLink_stn (s : State) (i : Station) (f : LinkRec → LinkRec) (j : Station) : (s.modLink i f).stn j = s.stn j := rfl
@[simp] theorem State.modLink_port (s : State) (i : Station) (f : LinkRec → LinkRec) (q : Port) : (s.modLink i f).port q = s.port q := rfl
@[simp] theorem State.modLink_engp (s : State) (i : Station) (f : LinkRec → LinkRec) (a : EngId) : (s.modLink i f).engp a = s.engp a := rfl
@[simp] theorem State.modLink_chan (s : State) (i : Station) (f : LinkRec → LinkRec) (b : ChanId) : (s.modLink i f).chan b = s.chan b := rfl
@[simp] theorem State.modLink_portOf (s : State) (i : Station) (f : LinkRec → LinkRec) (j : Station) : (s.modLink i f).portOf j = s.portOf j := rfl
@[simp] theorem State.modLink_mapped (s : State) (i : Station) (f : LinkRec → LinkRec) (j : Station) : (s.modLink i f).mapped j = s.mapped j := rfl
@[simp] theorem State.modPort_stn (s : State) (p : Port) (f : InhibitPort → InhibitPort) (j : Station) : (s.modPort p f).stn j = s.stn j := rfl
@[simp] theorem State.modPort_link (s : State) (p : Port) (f : InhibitPort → InhibitPort) (j : Station) : (s.modPort p f).link j = s.link j := rfl
@[simp] theorem State.modPort_engp (s : State) (p : Port) (f : InhibitPort → InhibitPort) (a : EngId) : (s.modPort p f).engp a = s.engp a := rfl
@[simp] theorem State.modPort_chan (s : State) (p : Port) (f : InhibitPort → InhibitPort) (b : ChanId) : (s.modPort p f).chan b = s.chan b := rfl
@[simp] theorem State.modPort_portOf (s : State) (p : Port) (f : InhibitPort → InhibitPort) (j : Station) : (s.modPort p f).portOf j = s.portOf j := rfl
@[simp] theorem State.modPort_mapped (s : State) (p : Port) (f : InhibitPort → InhibitPort) (j : Station) : (s.modPort p f).mapped j = s.mapped j := rfl
@[simp] theorem State.modEng_stn (s : State) (e : EngId) (f : EngPort → EngPort) (j : Station) : (s.modEng e f).stn j = s.stn j := rfl
@[simp] theorem State.modEng_link (s : State) (e : EngId) (f : EngPort → EngPort) (j : Station) : (s.modEng e f).link j = s.link j := rfl
@[simp] theorem State.modEng_port (s : State) (e : EngId) (f : EngPort → EngPort) (q : Port) : (s.modEng e f).port q = s.port q := rfl
@[simp] theorem State.modEng_chan (s : State) (e : EngId) (f : EngPort → EngPort) (b : ChanId) : (s.modEng e f).chan b = s.chan b := rfl
@[simp] theorem State.modEng_portOf (s : State) (e : EngId) (f : EngPort → EngPort) (j : Station) : (s.modEng e f).portOf j = s.portOf j := rfl
@[simp] theorem State.modEng_mapped (s : State) (e : EngId) (f : EngPort → EngPort) (j : Station) : (s.modEng e f).mapped j = s.mapped j := rfl
@[simp] theorem State.setChan_stn (s : State) (c : ChanId) (x : Channel) (j : Station) : (s.setChan c x).stn j = s.stn j := rfl
@[simp] theorem State.setChan_link (s : State) (c : ChanId) (x : Channel) (j : Station) : (s.setChan c x).link j = s.link j := rfl
@[simp] theorem State.setChan_port (s : State) (c : ChanId) (x : Channel) (q : Port) : (s.setChan c x).port q = s.port q := rfl
@[simp] theorem State.setChan_engp (s : State) (c : ChanId) (x : Channel) (a : EngId) : (s.setChan c x).engp a = s.engp a := rfl
@[simp] theorem State.setChan_portOf (s : State) (c : ChanId) (x : Channel) (j : Station) : (s.setChan c x).portOf j = s.portOf j := rfl
@[simp] theorem State.setChan_mapped (s : State) (c : ChanId) (x : Channel) (j : Station) : (s.setChan c x).mapped j = s.mapped j := rfl
@[simp] theorem State.setInput_stn (s : State) (x : InputId) (r : InputRec) (j : Station) : (s.setInput x r).stn j = s.stn j := rfl
@[simp] theorem State.setInput_link (s : State) (x : InputId) (r : InputRec) (j : Station) : (s.setInput x r).link j = s.link j := rfl
@[simp] theorem State.setInput_port (s : State) (x : InputId) (r : InputRec) (q : Port) : (s.setInput x r).port q = s.port q := rfl
@[simp] theorem State.setInput_engp (s : State) (x : InputId) (r : InputRec) (a : EngId) : (s.setInput x r).engp a = s.engp a := rfl
@[simp] theorem State.setInput_chan (s : State) (x : InputId) (r : InputRec) (b : ChanId) : (s.setInput x r).chan b = s.chan b := rfl
@[simp] theorem State.setInput_portOf (s : State) (x : InputId) (r : InputRec) (j : Station) : (s.setInput x r).portOf j = s.portOf j := rfl
@[simp] theorem State.setInput_mapped (s : State) (x : InputId) (r : InputRec) (j : Station) : (s.setInput x r).mapped j = s.mapped j := rfl
@[simp] theorem State.modEntry_stn (s : State) (k : Nat) (f : AuditEntry → AuditEntry) (j : Station) : (s.modEntry k f).stn j = s.stn j := rfl
@[simp] theorem State.modEntry_link (s : State) (k : Nat) (f : AuditEntry → AuditEntry) (j : Station) : (s.modEntry k f).link j = s.link j := rfl
@[simp] theorem State.modEntry_port (s : State) (k : Nat) (f : AuditEntry → AuditEntry) (q : Port) : (s.modEntry k f).port q = s.port q := rfl
@[simp] theorem State.modEntry_engp (s : State) (k : Nat) (f : AuditEntry → AuditEntry) (a : EngId) : (s.modEntry k f).engp a = s.engp a := rfl
@[simp] theorem State.modEntry_chan (s : State) (k : Nat) (f : AuditEntry → AuditEntry) (b : ChanId) : (s.modEntry k f).chan b = s.chan b := rfl
@[simp] theorem State.modEntry_portOf (s : State) (k : Nat) (f : AuditEntry → AuditEntry) (j : Station) : (s.modEntry k f).portOf j = s.portOf j := rfl
@[simp] theorem State.modEntry_mapped (s : State) (k : Nat) (f : AuditEntry → AuditEntry) (j : Station) : (s.modEntry k f).mapped j = s.mapped j := rfl
@[simp] theorem post_stn (s : State) (src : Source) (d : Detail) (j : Station) : (post src d s).stn j = s.stn j := rfl
@[simp] theorem post_link (s : State) (src : Source) (d : Detail) (j : Station) : (post src d s).link j = s.link j := rfl
@[simp] theorem post_port (s : State) (src : Source) (d : Detail) (q : Port) : (post src d s).port q = s.port q := rfl
@[simp] theorem post_engp (s : State) (src : Source) (d : Detail) (a : EngId) : (post src d s).engp a = s.engp a := rfl
@[simp] theorem post_chan (s : State) (src : Source) (d : Detail) (b : ChanId) : (post src d s).chan b = s.chan b := rfl
@[simp] theorem post_portOf (s : State) (src : Source) (d : Detail) (j : Station) : (post src d s).portOf j = s.portOf j := rfl
@[simp] theorem post_mapped (s : State) (src : Source) (d : Detail) (j : Station) : (post src d s).mapped j = s.mapped j := rfl
@[simp] theorem modCheck_stn (s : State) (f : Check → Check) (j : Station) : (modCheck f s).stn j = s.stn j := rfl
@[simp] theorem modCheck_link (s : State) (f : Check → Check) (j : Station) : (modCheck f s).link j = s.link j := rfl
@[simp] theorem modCheck_port (s : State) (f : Check → Check) (q : Port) : (modCheck f s).port q = s.port q := rfl
@[simp] theorem modCheck_engp (s : State) (f : Check → Check) (a : EngId) : (modCheck f s).engp a = s.engp a := rfl
@[simp] theorem modCheck_chan (s : State) (f : Check → Check) (b : ChanId) : (modCheck f s).chan b = s.chan b := rfl
@[simp] theorem modCheck_portOf (s : State) (f : Check → Check) (j : Station) : (modCheck f s).portOf j = s.portOf j := rfl
@[simp] theorem modCheck_mapped (s : State) (f : Check → Check) (j : Station) : (modCheck f s).mapped j = s.mapped j := rfl
@[simp] theorem modCh_stn (s : State) (f : Changeover → Changeover) (j : Station) : (modCh f s).stn j = s.stn j := rfl
@[simp] theorem modCh_link (s : State) (f : Changeover → Changeover) (j : Station) : (modCh f s).link j = s.link j := rfl
@[simp] theorem modCh_port (s : State) (f : Changeover → Changeover) (q : Port) : (modCh f s).port q = s.port q := rfl
@[simp] theorem modCh_engp (s : State) (f : Changeover → Changeover) (a : EngId) : (modCh f s).engp a = s.engp a := rfl
@[simp] theorem modCh_chan (s : State) (f : Changeover → Changeover) (b : ChanId) : (modCh f s).chan b = s.chan b := rfl
@[simp] theorem modCh_portOf (s : State) (f : Changeover → Changeover) (j : Station) : (modCh f s).portOf j = s.portOf j := rfl
@[simp] theorem modCh_mapped (s : State) (f : Changeover → Changeover) (j : Station) : (modCh f s).mapped j = s.mapped j := rfl

/-! ### Reading what was written -/

@[simp] theorem stn_modStn_self (s : State) (i : Station) (f : StationRec → StationRec) :
    (s.modStn i f).stn i = f (s.stn i) := by
  simp [State.modStn, State.stn]

@[simp] theorem stn_modStn_ne (s : State) {i j : Station} (f : StationRec → StationRec) (h : i ≠ j) :
    (s.modStn i f).stn j = s.stn j := by
  have h' : i.val ≠ j.val := fun e => h (Fin.ext e)
  simp [State.modStn, State.stn, Vector.getElem_set_ne, h']

@[simp] theorem link_modLink_self (s : State) (i : Station) (f : LinkRec → LinkRec) :
    (s.modLink i f).link i = f (s.link i) := by
  simp [State.modLink, State.link]

@[simp] theorem link_modLink_ne (s : State) {i j : Station} (f : LinkRec → LinkRec) (h : i ≠ j) :
    (s.modLink i f).link j = s.link j := by
  have h' : i.val ≠ j.val := fun e => h (Fin.ext e)
  simp [State.modLink, State.link, Vector.getElem_set_ne, h']

@[simp] theorem port_modPort_self (s : State) (p : Port) (f : InhibitPort → InhibitPort) :
    (s.modPort p f).port p = f (s.port p) := by
  simp [State.modPort, State.port]

@[simp] theorem port_modPort_ne (s : State) {p q : Port} (f : InhibitPort → InhibitPort) (h : p ≠ q) :
    (s.modPort p f).port q = s.port q := by
  have h' : p.val ≠ q.val := fun e => h (Fin.ext e)
  simp [State.modPort, State.port, Vector.getElem_set_ne, h']

@[simp] theorem engp_modEng_self (s : State) (e : EngId) (f : EngPort → EngPort) :
    (s.modEng e f).engp e = f (s.engp e) := by
  simp [State.modEng, State.engp]

@[simp] theorem engp_modEng_ne (s : State) {d e : EngId} (f : EngPort → EngPort) (h : d ≠ e) :
    (s.modEng d f).engp e = s.engp e := by
  have h' : d.val ≠ e.val := fun x => h (Fin.ext x)
  simp [State.modEng, State.engp, Vector.getElem_set_ne, h']

@[simp] theorem chan_setChan_self (s : State) (c : ChanId) (x : Channel) : (s.setChan c x).chan c = x := by
  simp [State.setChan, State.chan]

@[simp] theorem chan_setChan_ne (s : State) {b c : ChanId} (x : Channel) (h : b ≠ c) :
    (s.setChan b x).chan c = s.chan c := by
  have h' : b.val ≠ c.val := fun e => h (Fin.ext e)
  simp [State.setChan, State.chan, Vector.getElem_set_ne, h']

@[simp] theorem inputs_get_setInput_self (s : State) (x : InputId) (r : InputRec) : (s.setInput x r).inputs.get x = r := by
  cases x <;> rfl

theorem inputs_get_setInput_ne (s : State) {x y : InputId} (r : InputRec) (h : x ≠ y) :
    (s.setInput x r).inputs.get y = s.inputs.get y := by
  cases x <;> cases y <;> first | rfl | exact absurd rfl h

@[simp] theorem post_events (s : State) (src : Source) (d : Detail) :
    (post src d s).events = postEvent s.guardTime src d s.events := rfl

@[simp] theorem whenRunning_running (f : State → State) (s : State) (h : s.power = .running) : whenRunning f s = f s := by
  simp [whenRunning, h]

theorem whenRunning_else (f : State → State) (s : State) (h : s.power ≠ .running) : whenRunning f s = s := by
  simp [whenRunning, h]

end Sys2Proof.Machine
end

