-- ==== Sys2Proof/Laws/Work.lean ====
section
/-! SUPPORT. What the operations at work on the links leave alone. `State.outside` blanks what they may change (links,
releases, slots, sequence numbers, format states, sum-unreliable flags, parameters' values, images, audit, controller,
channels, replies to tools, events, active format). Each operation keeps everything else, which one lemma per operation
says as an equation. -/

namespace Sys2Proof.Machine

open Sys2Proof

/-- What the work on a link leaves of a station record. -/
def StationRec.core (r : StationRec) : StationRec :=
  { r with sumUnreliable := false, format := .mixed, slot := none, nextSeq := 0#8 }

/-- What it leaves of an inhibit port. -/
def InhibitPort.core (p : InhibitPort) : InhibitPort :=
  { p with driven := .asserted, holder := none, limitTimer := none, settleTimer := none, monitor := .idle }

/-- What it leaves of an engineering port. -/
def EngPort.core (p : EngPort) : EngPort := { p with state := .ready, awaited := none, tx := [] }

/-- What it leaves of a parameter: the fields fixed at load (R52). -/
def Param.core (p : Param) : Param := { p with base := 0, current := 0, window := none }

/-- What it leaves of an image: the fields of LOAD IMAGE (R112). -/
def Image.core (im : Image) : Image := { im with words := [], capture := none, print := none }

/-- What it leaves of an audit entry: the fields of ADD AUDIT ENTRY (R117). -/
def AuditEntry.core (e : AuditEntry) : AuditEntry :=
  { e with cls := none, resolved := none, expected := none, state := .unchecked, lastCheck := none, lastOutcome := none,
           drift := none }

/-- What it leaves of the state. -/
def State.outside (s : State) : State :=
  { s with
    stations := s.stations.map StationRec.core
    links := Vector.replicate 8 .quiet
    ports := s.ports.map InhibitPort.core
    params := s.params.map (fun e => (e.1, e.2.core))
    images := s.images.map Image.core
    audit := s.audit.map AuditEntry.core
    sched := .stopped
    activeFormat := 0
    changeover := .idle
    channels := Vector.replicate 2 .free
    eng := s.eng.map EngPort.core
    events := [] }

/-! ### Updates -/

theorem vector_map_set_self {α β : Type} {n : Nat} (v : Vector α n) (i : Nat) (hi : i < n) (x : α) (f : α → β)
    (h : f x = f v[i]) : (v.set i x hi).map f = v.map f := by
  ext k hk
  by_cases e : i = k
  · subst e; simp [h]
  · simp [Vector.getElem_set_ne, e]

theorem modStn_outside (s : State) (i : Station) (f : StationRec → StationRec) (h : ∀ r, (f r).core = r.core) :
    (s.modStn i f).outside = s.outside := by
  have := vector_map_set_self s.stations i.val i.isLt (f s.stations[i]) StationRec.core (h _)
  simp only [State.outside, State.modStn, State.stn]
  congr 1

@[simp] theorem modLink_outside (s : State) (i : Station) (f : LinkRec → LinkRec) :
    (s.modLink i f).outside = s.outside := rfl

theorem modPort_outside (s : State) (p : Port) (f : InhibitPort → InhibitPort) (h : ∀ r, (f r).core = r.core) :
    (s.modPort p f).outside = s.outside := by
  have := vector_map_set_self s.ports p.val p.isLt (f s.ports[p]) InhibitPort.core (h _)
  simp only [State.outside, State.modPort, State.port]
  congr 1

theorem modEng_outside (s : State) (e : EngId) (f : EngPort → EngPort) (h : ∀ r, (f r).core = r.core) :
    (s.modEng e f).outside = s.outside := by
  have := vector_map_set_self s.eng e.val e.isLt (f s.eng[e]) EngPort.core (h _)
  simp only [State.outside, State.modEng, State.engp]
  congr 1

@[simp] theorem setChan_outside (s : State) (c : ChanId) (x : Channel) : (s.setChan c x).outside = s.outside := rfl
theorem map_modify_self {α β : Type} (l : List α) (k : Nat) (f : α → α) (g : α → β) (h : ∀ x, g (f x) = g x) :
    (l.modify k f).map g = l.map g := by
  induction l generalizing k with
  | nil => cases k <;> rfl
  | cons a l ih => cases k <;> simp [List.modify_cons, h, ih]

theorem modEntry_outside (s : State) (k : Nat) (f : AuditEntry → AuditEntry) (h : ∀ e, (f e).core = e.core) :
    (s.modEntry k f).outside = s.outside := by
  simp only [State.outside, State.modEntry, map_modify_self _ _ _ _ h]

theorem setAudit_outside (s : State) (x : List AuditEntry) (h : x.map AuditEntry.core = s.audit.map AuditEntry.core) :
    State.outside { s with audit := x } = s.outside := by
  simp only [State.outside, h]

theorem mapAudit_outside (s : State) (f : AuditEntry → AuditEntry) (h : ∀ e, (f e).core = e.core) :
    State.outside { s with audit := s.audit.map f } = s.outside :=
  setAudit_outside _ _ (by simp [Function.comp_def, h])

theorem map_tableMod_self (ps : List (Nat × Param)) (k : Nat) (f : Param → Param) (h : ∀ p, (f p).core = p.core) :
    (tableMod ps k f).map (fun e => (e.1, e.2.core)) = ps.map (fun e => (e.1, e.2.core)) := by
  simp only [tableMod, List.map_map]
  refine List.map_congr_left (fun e _ => ?_)
  simp only [Function.comp]
  split <;> simp [h]

theorem map_modImage_self (ims : List Image) (id : Nat) (f : Image → Image) (h : ∀ im, (f im).core = im.core) :
    (modImage ims id f).map Image.core = ims.map Image.core := by
  simp only [modImage, List.map_map]
  refine List.map_congr_left (fun e _ => ?_)
  simp only [Function.comp]
  split <;> simp [h]

theorem foldl_tableMod_self (cs : List (Nat × Int)) (f : Nat × Int → Param → Param)
    (h : ∀ c p, (f c p).core = p.core) (ps : List (Nat × Param)) :
    (cs.foldl (fun ps c => tableMod ps c.1 (f c)) ps).map (fun e => (e.1, e.2.core)) =
      ps.map (fun e => (e.1, e.2.core)) := by
  induction cs generalizing ps with
  | nil => rfl
  | cons c cs ih => simp only [List.foldl_cons, ih]; exact map_tableMod_self _ _ _ (h c)

/-- The resolution of an entry keeps what was added. -/
theorem resolve_core (e : AuditEntry) (rs : List (Nat × Recipe)) (ims : List Image) (f : Nat) :
    (e.resolve rs ims f).core = e.core := by
  unfold AuditEntry.resolve; (repeat' split) <;> rfl

/-- The result of a check keeps what was added. -/
theorem after_core (e : AuditEntry) (r : CheckResult) (t : Nat) : (e.after r t).core = e.core := by
  unfold AuditEntry.after; (repeat' split) <;> rfl

@[simp] theorem post_outside (s : State) (src : Source) (d : Detail) : (post src d s).outside = s.outside := rfl
@[simp] theorem modCheck_outside (s : State) (f : Check → Check) : (modCheck f s).outside = s.outside := rfl
@[simp] theorem modCh_outside (s : State) (f : Changeover → Changeover) : (modCh f s).outside = s.outside := rfl
@[simp] theorem setSched_outside (s : State) (x : Scheduler) : State.outside { s with sched := x } = s.outside := rfl
@[simp] theorem setChangeover_outside (s : State) (x : Changeover) :
    State.outside { s with changeover := x } = s.outside := rfl
@[simp] theorem setActiveFormat_outside (s : State) (x : Nat) : State.outside { s with activeFormat := x } = s.outside :=
  rfl

theorem foldl_outside {α : Type} (f : State → α → State) (h : ∀ s a, (f s a).outside = s.outside) (l : List α)
    (s : State) : (l.foldl f s).outside = s.outside := by
  induction l generalizing s with
  | nil => rfl
  | cons a l ih => simp [ih, h]

/-! ### Ops -/

@[simp] theorem requestSweep_outside (i : Station) (s : State) : (requestSweep i s).outside = s.outside := by
  unfold requestSweep; split <;> rfl

@[simp] theorem dropSweep_outside (i : Station) (s : State) : (dropSweep i s).outside = s.outside := rfl

@[simp] theorem syncMonitor_outside (p : Port) (s : State) : (syncMonitor p s).outside = s.outside :=
  modPort_outside _ _ _ (fun _ => rfl)

@[simp] theorem grantRelease_outside (i : Station) (h : ReleaseHolder) (s : State) :
    (grantRelease i h s).outside = s.outside := by
  unfold grantRelease
  split
  · rfl
  · simp only [syncMonitor_outside]; exact modPort_outside _ _ _ (fun _ => rfl)

@[simp] theorem returnRelease_outside (i : Station) (h : ReleaseHolder) (s : State) :
    (returnRelease i h s).outside = s.outside := by
  unfold returnRelease
  split
  · rfl
  · split
    · simp only [syncMonitor_outside]; exact modPort_outside _ _ _ (fun _ => rfl)
    · rfl

@[simp] theorem dropRelease_outside (i : Station) (s : State) : (dropRelease i s).outside = s.outside := by
  unfold dropRelease
  split
  · rfl
  · split
    · simp only [syncMonitor_outside]; exact modPort_outside _ _ _ (fun _ => rfl)
    · rfl

@[simp] theorem sendRequest_outside (i : Station) (q : StationRequest) (u : LinkUser) (s : State) :
    (sendRequest i q u s).outside = s.outside := by
  simp only [sendRequest, modLink_outside]; exact modStn_outside _ _ _ (fun _ => rfl)

@[simp] theorem addWaiter_outside (i : Station) (u : LinkUser) (s : State) : (addWaiter i u s).outside = s.outside := rfl
@[simp] theorem dropUser_outside (i : Station) (u : LinkUser) (s : State) : (dropUser i u s).outside = s.outside := rfl
@[simp] theorem startPoll_outside (i : Station) (s : State) : (startPoll i s).outside = s.outside := rfl
@[simp] theorem startBringUp_outside (i : Station) (s : State) : (startBringUp i s).outside = s.outside := rfl

@[simp] theorem sendTool_outside (e : EngId) (tag : Byte) (r : ToolReply) (s : State) :
    (sendTool e tag r s).outside = s.outside :=
  modEng_outside _ _ _ (fun _ => rfl)

@[simp] theorem deliver_outside (i : Station) (op : ToolOp) (r : ToolReply) (s : State) :
    (deliver i op r s).outside = s.outside := by
  unfold deliver
  split
  · refine (modEng_outside _ _ _ ?_).trans (sendTool_outside _ _ _ _)
    intro; rfl
  · rfl

@[simp] theorem recompute_outside (ks : List Nat) (s : State) : (recompute ks s).outside = s.outside := by
  refine mapAudit_outside s _ (fun e => ?_)
  split <;> rfl

@[simp] theorem takeChanges_outside (cs : List (Nat × Int)) (s : State) : (takeChanges cs s).outside = s.outside := by
  simp only [takeChanges, recompute_outside]
  simp only [State.outside, foldl_tableMod_self cs (fun c p => p.change c.2 s.guardTime) (fun _ _ => rfl)]

@[simp] theorem commitValues_outside (vs : List (Nat × Int)) (s : State) : (commitValues vs s).outside = s.outside := by
  simp only [commitValues, recompute_outside]
  simp only [State.outside, foldl_tableMod_self vs (fun c p => p.commit c.2) (fun _ _ => rfl)]

/-! ### Grant -/

@[simp] theorem modSlot_outside (i : Station) (f : ToolOp → ToolOp) (s : State) :
    (modSlot i f s).outside = s.outside :=
  modStn_outside _ _ _ (fun _ => rfl)

@[simp] theorem sendToolWrite_outside (i : Station) (op : ToolOp) (s : State) :
    (sendToolWrite i op s).outside = s.outside := by simp [sendToolWrite]

@[simp] theorem sendToolRead_outside (i : Station) (op : ToolOp) (ph : Phase) (s : State) :
    (sendToolRead i op ph s).outside = s.outside := by simp [sendToolRead]

@[simp] theorem relayClose_outside (i : Station) (s : State) : (relayClose i s).outside = s.outside := by
  simp only [relayClose, dropUser_outside]
  refine (modStn_outside _ _ _ ?_).trans (returnRelease_outside _ _ _)
  intro; rfl

@[simp] theorem relayReport_outside (i : Station) (op : ToolOp) (o : RelayOutcome) (s : State) :
    (relayReport i op o s).outside = s.outside := by
  unfold relayReport
  simp only [deliver_outside]
  split
  · rw [post_outside]; (repeat' split) <;> simp
  · split <;> simp

@[simp] theorem startTool_outside (i : Station) (s : State) : (startTool i s).outside = s.outside := by
  unfold startTool; (repeat' split) <;> simp

@[simp] theorem sendAccessRead_outside (c : ChanId) (w : AccessWork) (s : State) :
    (sendAccessRead c w s).outside = s.outside := by simp [sendAccessRead]

@[simp] theorem startAccess_outside (i : Station) (c : ChanId) (s : State) : (startAccess i c s).outside = s.outside := by
  unfold startAccess; split <;> simp

@[simp] theorem sendCheckRead_outside (e : AuditEntry) (c : Check) (ph : CheckPhase) (s : State) :
    (sendCheckRead e c ph s).outside = s.outside := by simp [sendCheckRead]

@[simp] theorem startAudit_outside (i : Station) (s : State) : (startAudit i s).outside = s.outside := by
  unfold startAudit; (repeat' split) <;> simp

@[simp] theorem startStep_outside (i : Station) (s : State) : (startStep i s).outside = s.outside := by
  unfold startStep; (repeat' split) <;> simp

@[simp] theorem startUser_outside (i : Station) (u : LinkUser) (s : State) : (startUser i u s).outside = s.outside := by
  cases u <;> simp [startUser]

@[simp] theorem takeWaiter_outside (i : Station) (u : LinkUser) (s : State) : (takeWaiter i u s).outside = s.outside :=
  rfl

@[simp] theorem grantLoop_outside (i : Station) (n : Nat) (s : State) : (grantLoop i n s).outside = s.outside := by
  induction n generalizing s with
  | zero => rfl
  | succ n ih => simp only [grantLoop]; (repeat' split) <;> simp [ih]

@[simp] theorem grant_outside (i : Station) (s : State) : (grant i s).outside = s.outside := by simp [grant]
@[simp] theorem place_outside (i : Station) (u : LinkUser) (s : State) : (place i u s).outside = s.outside := by
  simp [place]
@[simp] theorem leave_outside (i : Station) (u : LinkUser) (s : State) : (leave i u s).outside = s.outside := by
  simp [leave]

@[simp] theorem endRelay_outside (i : Station) (op : ToolOp) (o : RelayOutcome) (s : State) :
    (endRelay i op o s).outside = s.outside := by simp [endRelay]

@[simp] theorem endToolRead_outside (i : Station) (op : ToolOp) (r : ToolReply) (s : State) :
    (endToolRead i op r s).outside = s.outside := by simp [endToolRead]

@[simp] theorem placePresence_outside (i : Station) (s : State) : (placePresence i s).outside = s.outside := by
  unfold placePresence; split <;> simp

theorem captureEnds_core (c : ChanId) (got : List Word) (f : Option Cause) (im : Image) :
    (im.captureEnds c got f).core = im.core := by
  unfold Image.captureEnds; (repeat' split) <;> rfl

/-- An image with no capture is left as it is. -/
theorem captureEnds_none (c : ChanId) (got : List Word) (f : Option Cause) (im : Image) (h : im.capture = none) :
    im.captureEnds c got f = im := by simp [Image.captureEnds, h]

@[simp] theorem endAccess_outside (c : ChanId) (w : AccessWork) (f : Option Cause) (s : State) :
    (endAccess c w f s).outside = s.outside := by
  unfold endAccess
  simp only [post_outside, setChan_outside]
  split
  · simp
  · simp only [State.outside]
    rw [map_modImage_self _ _ _ (captureEnds_core _ _ _)]
    exact leave_outside w.station (.access c) s

/-! ### Audit -/

@[simp] theorem startPace_outside (s : State) : (startPace s).outside = s.outside := rfl

@[simp] theorem beginCheck_outside (k : Nat) (b : Bool) (s : State) : (beginCheck k b s).outside = s.outside := by
  unfold beginCheck
  split
  · rfl
  · split
    · rw [place_outside]; rfl
    · rfl

@[simp] theorem choose_outside (s : State) : (choose s).outside = s.outside := by
  unfold choose
  simp only
  split
  · rw [beginCheck_outside]; rfl
  · split
    · rw [beginCheck_outside]; rfl
    · rfl

@[simp] theorem chooseIfDue_outside (s : State) : (chooseIfDue s).outside = s.outside := by
  unfold chooseIfDue; split <;> simp

@[simp] theorem endCheck_outside (r : CheckResult) (s : State) : (endCheck r s).outside = s.outside := by
  unfold endCheck
  split
  · rfl
  · simp only [chooseIfDue_outside, setSched_outside]
    have h : ∀ (x : State) (i : Station),
        (x.modStn i (fun st => { st with sumUnreliable := true })).outside = x.outside :=
      fun x i => modStn_outside _ _ _ (fun _ => rfl)
    (repeat' split) <;> simp [h, modEntry_outside _ _ _ (fun e => after_core e _ _)]

@[simp] theorem auditHold_outside (set : List Station) (s : State) : (auditHold set s).outside = s.outside := by
  have h : (suspendEntries set s).outside = s.outside :=
    mapAudit_outside s _ (fun e => by split <;> rfl)
  unfold auditHold holdCheck
  (repeat' split) <;> simp [h]

@[simp] theorem auditRelease_outside (set : List Station) (s : State) : (auditRelease set s).outside = s.outside := by
  refine mapAudit_outside s _ (fun e => ?_)
  (repeat' split) <;> first | rfl | (rw [resolve_core]; rfl) | rw [resolve_core]

@[simp] theorem resolveAll_outside (s : State) : (resolveAll s).outside = s.outside := by
  unfold resolveAll
  exact (setSched_outside _ _).trans (mapAudit_outside s _ (fun e => resolve_core e _ _ _))

@[simp] theorem auditPaceExpiry_outside (s : State) : (auditPaceExpiry s).outside = s.outside := by
  unfold auditPaceExpiry; split <;> simp

/-! ### Controller -/

@[simp] theorem dropStep_outside (s : State) : (dropStep s).outside = s.outside := by
  unfold dropStep; split <;> simp

@[simp] theorem setFormats_outside (set : List Station) (f : FormatState) (s : State) :
    (setFormats set f s).outside = s.outside :=
  foldl_outside (fun s i => s.modStn i (fun r => { r with format := f }))
    (fun s i => modStn_outside s i _ (fun _ => rfl)) set s

@[simp] theorem failOperation_outside (f : Failure) (s : State) : (failOperation f s).outside = s.outside := by
  unfold failOperation; simp only; split <;> simp

@[simp] theorem failFromOutside_outside (f : Failure) (s : State) : (failFromOutside f s).outside = s.outside := by
  unfold failFromOutside; (repeat' split) <;> simp

@[simp] theorem succeed_outside (s : State) : (succeed s).outside = s.outside := by
  have h : ∀ (x : State) (k t : Nat), (x.modEntry k (fun e => { e with
      drift := none, state := .matched, lastCheck := some t, lastOutcome := some .matched })).outside = x.outside :=
    fun x k t => modEntry_outside _ _ _ (fun _ => rfl)
  unfold succeed; split <;> simp [commitChangeover, revertSuccess, restoreSuccess, h]

@[simp] theorem beginStep_outside (s : State) : (beginStep s).outside = s.outside := by
  unfold beginStep; simp only; (repeat' split) <;> simp

@[simp] theorem beginWork_outside (st : ChState) (s : State) : (beginWork st s).outside = s.outside := by
  simp [beginWork]

@[simp] theorem nextStep_outside (s : State) : (nextStep s).outside = s.outside := by
  unfold nextStep; simp only; (repeat' split) <;> simp

@[simp] theorem finishStep_outside (st : Step) (s : State) : (finishStep st s).outside = s.outside := by
  simp [finishStep]

@[simp] theorem writeNext_outside (st : Step) (s : State) : (writeNext st s).outside = s.outside := by
  unfold writeNext; split <;> simp

@[simp] theorem askStepRelease_outside (st : Step) (s : State) : (askStepRelease st s).outside = s.outside := by
  unfold askStepRelease; split <;> simp

@[simp] theorem stateChecked_outside (st : Step) (m : Option PlcMode) (s : State) :
    (stateChecked st m s).outside = s.outside := by
  unfold stateChecked; split <;> simp

@[simp] theorem stepAcked_outside (st : Step) (n : Nat) (s : State) : (stepAcked st n s).outside = s.outside := by
  unfold stepAcked; split <;> simp

@[simp] theorem stepTrouble_outside (c : Cause) (s : State) : (stepTrouble c s).outside = s.outside := by
  simp [stepTrouble]

@[simp] theorem readNext_outside (st : Step) (s : State) : (readNext st s).outside = s.outside := by
  unfold readNext; split <;> simp

@[simp] theorem stepRead_outside (st : Step) (ws : List Word) (s : State) : (stepRead? st ws s).outside = s.outside := by
  unfold stepRead?; simp only; (repeat' split) <;> simp

@[simp] theorem controllerLost_outside (i : Station) (c : Cause) (s : State) :
    (controllerLost i c s).outside = s.outside := by
  unfold controllerLost; simp only; (repeat' split) <;> simp

/-! ### Results of transactions -/

@[simp] theorem endToolBy_outside (i : Station) (c : Cause) (s : State) : (endToolBy i c s).outside = s.outside := by
  unfold endToolBy; (repeat' split) <;> simp

@[simp] theorem endAccessBy_outside (c : ChanId) (f : Cause) (s : State) : (endAccessBy c f s).outside = s.outside := by
  unfold endAccessBy; split <;> simp

@[simp] theorem endByLink_outside (i : Station) (u : LinkUser) (s : State) : (endByLink i u s).outside = s.outside := by
  cases u <;> simp [endByLink]

@[simp] theorem endByQuarantine_outside (i : Station) (u : LinkUser) (s : State) :
    (endByQuarantine i u s).outside = s.outside := by
  cases u <;> simp [endByQuarantine]

@[simp] theorem presenceResult_outside (i : Station) (r : TxResult) (s : State) :
    (presenceResult i r s).outside = s.outside := by
  unfold presenceResult; split <;> simp

@[simp] theorem relayResult_outside (i : Station) (op : ToolOp) (q : StationRequest) (r : TxResult) (s : State) :
    (relayResult i op q r s).outside = s.outside := by
  unfold relayResult; (repeat' (first | split | simp only)) <;> simp

@[simp] theorem toolReadResult_outside (i : Station) (op : ToolOp) (r : TxResult) (s : State) :
    (toolReadResult i op r s).outside = s.outside := by
  unfold toolReadResult; (repeat' (first | split | simp only)) <;> simp

@[simp] theorem toolResult_outside (i : Station) (q : StationRequest) (r : TxResult) (s : State) :
    (toolResult i q r s).outside = s.outside := by
  unfold toolResult; (repeat' split) <;> simp

@[simp] theorem accessResult_outside (i : Station) (c : ChanId) (r : TxResult) (s : State) :
    (accessResult i c r s).outside = s.outside := by
  unfold accessResult; (repeat' (first | split | simp only)) <;> simp

@[simp] theorem checkResult_outside (i : Station) (r : TxResult) (s : State) : (checkResult i r s).outside = s.outside := by
  unfold checkResult; (repeat' (first | split | simp only)) <;> simp

@[simp] theorem stepResult_outside (i : Station) (q : StationRequest) (r : TxResult) (s : State) :
    (stepResult i q r s).outside = s.outside := by
  unfold stepResult; (repeat' split) <;> simp

end Sys2Proof.Machine
end

