-- ==== Sys2Proof/Laws/Settings.lean ====
section
/-! SUPPORT. What no event of a station, an inhibit port, an input or an engineering port changes: `State.settings`, the
stage, the lock flag, guard time, the map, the roster, the timing values, the check times and edge modes of the inputs,
all that was fixed when the tables were loaded, and the reply the supervisor link is sending. -/

namespace Sys2Proof.Machine

open Sys2Proof

/-- An input with its check time and its edge-report mode, which only SET INPUT sets (R34), and nothing else. -/
def InputRec.fixed (r : InputRec) : InputRec := { InputRec.start false with checkTime := r.checkTime, mode := r.mode }

/-- The three inputs with their check times and their edge-report modes, and nothing else. -/
def Inputs.fixed (ins : Inputs) : Inputs :=
  { key := ins.key.fixed, lineRun := ins.lineRun.fixed, cover := ins.cover.fixed }

theorem inputs_set_fixed (ins : Inputs) (x : InputId) (r : InputRec) (hc : r.checkTime = (ins.get x).checkTime)
    (hm : r.mode = (ins.get x).mode) : (ins.set x r).fixed = ins.fixed := by
  cases x <;> simp_all [Inputs.set, Inputs.get, Inputs.fixed, InputRec.fixed]

/-- What the stations, ports, inputs and tools leave of the state. -/
def State.settings (s : State) : State :=
  { s.outside with
    resetLevel := false
    resetHeld := 0
    jumperField := Vector.replicate 8 .high
    subSecond := 0
    stations := Vector.replicate 8 (.cleared 0)
    ports := Vector.replicate 8 (.start .high)
    inputs := s.outside.inputs.fixed
    eng := Vector.replicate 4 (.start false)
    sup := { SupLink.start none with answering := s.outside.sup.answering, restarting := s.outside.sup.restarting }
    holdoff := none }

theorem settings_of_outside {s t : State} (h : s.outside = t.outside) : s.settings = t.settings := by
  simp only [State.settings, h]

@[simp] theorem modStn_settings (s : State) (i : Station) (f : StationRec → StationRec) :
    (s.modStn i f).settings = s.settings := rfl
@[simp] theorem modLink_settings (s : State) (i : Station) (f : LinkRec → LinkRec) :
    (s.modLink i f).settings = s.settings := rfl
@[simp] theorem modPort_settings (s : State) (p : Port) (f : InhibitPort → InhibitPort) :
    (s.modPort p f).settings = s.settings := rfl
@[simp] theorem modEng_settings (s : State) (e : EngId) (f : EngPort → EngPort) :
    (s.modEng e f).settings = s.settings := rfl
@[simp] theorem setInput_settings (s : State) (x : InputId) (r : InputRec)
    (hc : r.checkTime = (s.inputs.get x).checkTime) (hm : r.mode = (s.inputs.get x).mode) :
    (s.setInput x r).settings = s.settings := by
  simp [State.settings, State.outside, State.setInput, inputs_set_fixed _ _ _ hc hm]
@[simp] theorem setChan_settings (s : State) (c : ChanId) (x : Channel) : (s.setChan c x).settings = s.settings := rfl
@[simp] theorem post_settings (s : State) (src : Source) (d : Detail) : (post src d s).settings = s.settings := rfl
theorem setSup_settings (s : State) (x : SupLink) (ha : x.answering = s.sup.answering)
    (hr : x.restarting = s.sup.restarting) : State.settings { s with sup := x } = s.settings := by
  simp [State.settings, State.outside, ha, hr]

theorem foldl_settings {α : Type} (f : State → α → State) (h : ∀ s a, (f s a).settings = s.settings) (l : List α)
    (s : State) : (l.foldl f s).settings = s.settings := by
  induction l generalizing s with
  | nil => rfl
  | cons a l ih => simp [ih, h]

/-! ### Stations -/

@[simp] theorem setStState_settings (i : Station) (st : StState) (s : State) :
    (setStState i st s).settings = s.settings := by
  unfold setStState; simp only; split <;> rfl

@[simp] theorem grant_settings (i : Station) (s : State) : (grant i s).settings = s.settings :=
  settings_of_outside (grant_outside i s)
@[simp] theorem place_settings (i : Station) (u : LinkUser) (s : State) : (place i u s).settings = s.settings :=
  settings_of_outside (place_outside i u s)
@[simp] theorem leave_settings (i : Station) (u : LinkUser) (s : State) : (leave i u s).settings = s.settings :=
  settings_of_outside (leave_outside i u s)
@[simp] theorem placePresence_settings (i : Station) (s : State) : (placePresence i s).settings = s.settings :=
  settings_of_outside (placePresence_outside i s)
@[simp] theorem requestSweep_settings (i : Station) (s : State) : (requestSweep i s).settings = s.settings :=
  settings_of_outside (requestSweep_outside i s)
@[simp] theorem dropSweep_settings (i : Station) (s : State) : (dropSweep i s).settings = s.settings := rfl
@[simp] theorem dropRelease_settings (i : Station) (s : State) : (dropRelease i s).settings = s.settings :=
  settings_of_outside (dropRelease_outside i s)
@[simp] theorem dropUser_settings (i : Station) (u : LinkUser) (s : State) : (dropUser i u s).settings = s.settings := rfl
@[simp] theorem startBringUp_settings (i : Station) (s : State) : (startBringUp i s).settings = s.settings := rfl
@[simp] theorem sendRequest_settings (i : Station) (q : StationRequest) (u : LinkUser) (s : State) :
    (sendRequest i q u s).settings = s.settings := settings_of_outside (sendRequest_outside i q u s)
@[simp] theorem controllerLost_settings (i : Station) (c : Cause) (s : State) :
    (controllerLost i c s).settings = s.settings := settings_of_outside (controllerLost_outside i c s)
@[simp] theorem endByLink_settings (i : Station) (u : LinkUser) (s : State) : (endByLink i u s).settings = s.settings :=
  settings_of_outside (endByLink_outside i u s)
@[simp] theorem endByQuarantine_settings (i : Station) (u : LinkUser) (s : State) :
    (endByQuarantine i u s).settings = s.settings := settings_of_outside (endByQuarantine_outside i u s)

@[simp] theorem goDown_settings (i : Station) (s : State) : (goDown i s).settings = s.settings := by simp [goDown]

theorem linkLoss_settings (i : Station) (own : State → State) (h : ∀ s, (own s).settings = s.settings) (s : State) :
    (linkLoss i own s).settings = s.settings := by
  simp [linkLoss, foldl_settings (fun s u => endByLink i u s) (fun s u => endByLink_settings i u s), h]

@[simp] theorem quarantineOnline_settings (i : Station) (s : State) : (quarantineOnline i s).settings = s.settings := by
  simp [quarantineOnline, foldl_settings (fun s u => endByQuarantine i u s) (fun s u => endByQuarantine_settings i u s),
    foldl_settings (fun s u => dropUser i u s) (fun s u => dropUser_settings i u s)]

@[simp] theorem faultPort_settings (p : Port) (s : State) : (faultPort p s).settings = s.settings := by
  unfold faultPort; simp only; (repeat' split) <;> simp

@[simp] theorem releaseStation_settings (i : Station) (s : State) : (releaseStation i s).settings = s.settings := by
  unfold releaseStation
  simp only [foldl_settings (fun s u => endByLink i u s) (fun s u => endByLink_settings i u s), goDown_settings,
    foldl_settings (fun s u => dropUser i u s) (fun s u => dropUser_settings i u s)]
  split <;> simp

@[simp] theorem clearRecord_settings (i : Station) (s : State) : (clearRecord i s).settings = s.settings := by
  simp [clearRecord]

@[simp] theorem disableStation_settings (i : Station) (s : State) : (disableStation i s).settings = s.settings := by
  simp [disableStation, foldl_settings (fun s u => endByLink i u s) (fun s u => endByLink_settings i u s)]

@[simp] theorem enableStation_settings (i : Station) (s : State) : (enableStation i s).settings = s.settings := by
  simp [enableStation]

@[simp] theorem trainStep_settings (i : Station) (a b : Nat) (s : State) : (trainStep i a b s).settings = s.settings := by
  simp [trainStep]

@[simp] theorem trainFailed_settings (i : Station) (t : Training) (s : State) :
    (trainFailed i t s).settings = s.settings := by
  unfold trainFailed; split <;> simp [setRate]

@[simp] theorem trainDone_settings (i : Station) (t : Training) (s : State) :
    (trainDone i t s).settings = s.settings := by simp [trainDone]

@[simp] theorem quarantineDown_settings (i : Station) (r : QReason) (s : State) :
    (quarantineDown i r s).settings = s.settings := by simp [quarantineDown]

@[simp] theorem identTaken_settings (i : Station) (a b c : Word) (d : BitVec 32) (e f : Byte) (s : State) :
    (identTaken i a b c d e f s).settings = s.settings := by
  unfold identTaken; simp only; (repeat' split) <;> simp

@[simp] theorem bringUpResult_settings (i : Station) (r : TxResult) (s : State) :
    (bringUpResult i r s).settings = s.settings := by
  unfold bringUpResult; (repeat' split) <;> simp [setRate]

@[simp] theorem ownerResult_settings (i : Station) (u : LinkUser) (q : StationRequest) (r : TxResult) (s : State) :
    (ownerResult i u q r s).settings = s.settings := by
  cases u with
  | bringUp => exact bringUpResult_settings i r s
  | presence => exact settings_of_outside (presenceResult_outside i r s)
  | tool => exact settings_of_outside (toolResult_outside i q r s)
  | access c => exact settings_of_outside (accessResult_outside i c r s)
  | audit => exact settings_of_outside (checkResult_outside i r s)
  | changeover => exact settings_of_outside (stepResult_outside i q r s)

@[simp] theorem linkEffects_settings (i : Station) (q : StationRequest) (r : TxResult) (s : State) :
    (linkEffects i q r s).settings = s.settings := by
  unfold linkEffects compareCounter; simp only; (repeat' split) <;> simp

@[simp] theorem countMissed_settings (i : Station) (r : TxResult) (s : State) :
    (countMissed i r s).settings = s.settings := by
  unfold countMissed; split <;> simp

@[simp] theorem endTransaction_settings (i : Station) (t : Transaction) (r : TxResult) (s : State) :
    (endTransaction i t r s).settings = s.settings := by
  unfold endTransaction
  simp only
  split
  · rw [linkLoss_settings _ _ (fun s => by split <;> simp)]; simp
  · split <;> simp

@[simp] theorem stationFrame_settings (i : Station) (seq : Byte) (r : StationReply) (s : State) :
    (stationFrame i seq r s).settings = s.settings := by
  unfold stationFrame; (repeat' split) <;> simp

/-! ### Terminals, timers and tools -/

theorem whenRunning_settings (f : State → State) (s : State) (h : (f s).settings = s.settings) :
    (whenRunning f s).settings = s.settings := by
  unfold whenRunning; split
  · exact h
  · rfl

@[simp] theorem failFromOutside_settings (f : Failure) (s : State) : (failFromOutside f s).settings = s.settings :=
  settings_of_outside (failFromOutside_outside f s)

@[simp] theorem acceptLevel_settings (x : InputId) (s : State) : (acceptLevel x s).settings = s.settings := by
  unfold acceptLevel; simp only; (repeat' split) <;> simp

@[simp] theorem rawChange_settings (x : InputId) (l : Bool) (s : State) : (rawChange x l s).settings = s.settings := by
  unfold rawChange; simp only; (repeat' split) <;> simp

@[simp] theorem debounceExpiry_settings (x : InputId) (s : State) : (debounceExpiry x s).settings = s.settings :=
  whenRunning_settings _ _ (by split <;> simp)

@[simp] theorem portReady_settings (h : ReleaseHolder) (s : State) : (portReady h s).settings = s.settings := by
  refine settings_of_outside ?_
  unfold portReady; (repeat' split) <;> simp

@[simp] theorem settleExpiry_settings (p : Port) (s : State) : (settleExpiry p s).settings = s.settings :=
  whenRunning_settings _ _ (by simp only; (repeat' split) <;> simp)

@[simp] theorem holderExpired_settings (h : ReleaseHolder) (s : State) : (holderExpired h s).settings = s.settings := by
  refine settings_of_outside ?_
  unfold holderExpired; (repeat' split) <;> simp

@[simp] theorem syncMonitor_settings (p : Port) (s : State) : (syncMonitor p s).settings = s.settings := rfl

@[simp] theorem limitExpiry_settings (p : Port) (s : State) : (limitExpiry p s).settings = s.settings :=
  whenRunning_settings _ _ (by simp only; (repeat' split) <;> simp)

@[simp] theorem senseChange_settings (p : Port) (l : Bool) (s : State) : (senseChange p l s).settings = s.settings :=
  whenRunning_settings _ _ rfl

@[simp] theorem disagreeExpiry_settings (p : Port) (s : State) : (disagreeExpiry p s).settings = s.settings :=
  whenRunning_settings _ _ (by split <;> simp)

@[simp] theorem presentAsserted_settings (e : EngId) (s : State) : (presentAsserted e s).settings = s.settings := by
  unfold presentAsserted; simp only; (repeat' split) <;> simp

@[simp] theorem presentDropped_settings (e : EngId) (s : State) : (presentDropped e s).settings = s.settings := by
  unfold presentDropped; simp only; (repeat' split) <;> simp

@[simp] theorem detachExpiry_settings (e : EngId) (s : State) : (detachExpiry e s).settings = s.settings :=
  whenRunning_settings _ _ (by simp only; split <;> simp)

@[simp] theorem portSettleExpiry_settings (e : EngId) (s : State) : (portSettleExpiry e s).settings = s.settings :=
  whenRunning_settings _ _ (by simp only; split <;> simp)

@[simp] theorem strikeWindowExpiry_settings (e : EngId) (s : State) : (strikeWindowExpiry e s).settings = s.settings :=
  whenRunning_settings _ _ (by split <;> simp)

@[simp] theorem lockoutExpiry_settings (e : EngId) (s : State) : (lockoutExpiry e s).settings = s.settings :=
  whenRunning_settings _ _ (by split <;> simp)

@[simp] theorem sendTool_settings (e : EngId) (tag : Byte) (r : ToolReply) (s : State) :
    (sendTool e tag r s).settings = s.settings := rfl

@[simp] theorem strike_settings (e : EngId) (p : Policy) (i : Station) (b : Nat) (s : State) :
    (strike e p i b s).settings = s.settings := by
  unfold strike; simp only; split <;> simp

@[simp] theorem refusePolicy_settings (e : EngId) (tag : Byte) (p : Policy) (o : Nat) (i : Station) (b : Nat)
    (s : State) : (refusePolicy e tag p o i b s).settings = s.settings := by simp [refusePolicy]

@[simp] theorem fillSlot_settings (i : Station) (op : ToolOp) (s : State) : (fillSlot i op s).settings = s.settings := by
  simp [fillSlot]

@[simp] theorem readyFrame_settings (e : EngId) (tag : Byte) (q : ToolRequest) (s : State) :
    (readyFrame e tag q s).settings = s.settings := by
  unfold readyFrame takeToolRead takeToolWrite; (repeat' split) <;> simp

@[simp] theorem toolFrame_settings (e : EngId) (tag : Byte) (q : ToolRequest) (s : State) :
    (toolFrame e tag q s).settings = s.settings :=
  whenRunning_settings _ _ (by split <;> simp)

@[simp] theorem stationReply_settings (i : Station) (seq : Byte) (r : StationReply) (s : State) :
    (stationReply i seq r s).settings = s.settings := whenRunning_settings _ _ (by simp)

@[simp] theorem stationBytes_settings (i : Station) (f : Frame) (s : State) : (stationBytes i f s).settings = s.settings :=
  whenRunning_settings _ _ (by split <;> simp)

@[simp] theorem setRx_settings (l : LinkId) (bs : List Byte) (s : State) : (setRx l bs s).settings = s.settings := by
  cases l <;> rfl

@[simp] theorem identExpiry_settings (i : Station) (s : State) : (identExpiry i s).settings = s.settings :=
  whenRunning_settings _ _ (by split <;> simp)

@[simp] theorem pauseExpiry_settings (i : Station) (s : State) : (pauseExpiry i s).settings = s.settings :=
  whenRunning_settings _ _ (by split <;> simp)

@[simp] theorem pollExpiry_settings (i : Station) (s : State) : (pollExpiry i s).settings = s.settings :=
  whenRunning_settings _ _ (by split <;> simp)

@[simp] theorem timeoutExpiry_settings (i : Station) (s : State) : (timeoutExpiry i s).settings = s.settings :=
  whenRunning_settings _ _ (by split <;> simp)

@[simp] theorem paceExpiry_settings (s : State) : (paceExpiry s).settings = s.settings :=
  whenRunning_settings _ _ (settings_of_outside (auditPaceExpiry_outside s))

@[simp] theorem passMs_settings (n : Nat) (s : State) : (passMs n s).settings = s.settings := by
  refine whenRunning_settings _ _ ?_
  simp [State.settings, State.outside, Inputs.fixed, InputRec.fixed, InputRec.pass]

@[simp] theorem holdoffExpiry_settings (s : State) : (holdoffExpiry s).settings = s.settings :=
  whenRunning_settings _ _ rfl

end Sys2Proof.Machine
end

