-- ==== Sys2Proof/Laws/Kept.lean ====
section
/-! SUPPORT. A property of the state that the elementary updates keep is kept by everything the stations, ports, inputs
and tools do. `Kept P` lists the elementary updates, and one lemma per operation carries `P` through it, so that an
invariant is proved once per elementary update and not once per operation. -/

namespace Sys2Proof.Machine

open Sys2Proof

/-- A property that every elementary update keeps. -/
structure Kept (P : State → Prop) : Prop where
  link : ∀ s i f, P s → P (s.modLink i f)
  stn : ∀ s i (f : StationRec → StationRec), (∀ r, (f r).state = r.state) → P s → P (s.modStn i f)
  off : ∀ s i (f : StationRec → StationRec), (s.stn i).state ≠ .online → (f (s.stn i)).state ≠ .online → P s →
    P (s.modStn i f)
  eng : ∀ s e f, P s → P (s.modEng e f)
  chan : ∀ s c x, P s → P (s.setChan c x)
  input : ∀ s x r, P s → P (s.setInput x r)
  audit : ∀ s x, P s → P { s with audit := x }
  sched : ∀ s x, P s → P { s with sched := x }
  changeover : ∀ s x, P s → P { s with changeover := x }
  params : ∀ s x, P s → P { s with params := x }
  images : ∀ s id c got f, P s → P { s with images := modImage s.images id (Image.captureEnds c got f) }
  active : ∀ s x, P s → P { s with activeFormat := x }
  post : ∀ s src d, src.posts d.kind = true → P s → P (post src d s)
  sync : ∀ s p, P s → P (syncMonitor p s)
  grantRel : ∀ s i h b, releaseAnswer i s = .granted b → P s → P (grantRelease i h s)
  returnRel : ∀ s i h, P s → P (returnRelease i h s)
  enter : ∀ s i st, ((s.stn i).state ≠ .online ∨ st = .online) → P s → P (setStState i st s)
  leave : ∀ s i st, st ≠ .online → P s → P (dropRelease i (setStState i st s))
  settled : ∀ s p, P s → P (s.modPort p (fun r => { r with settleTimer := none }))
  sensed : ∀ s p l, P s → P (s.modPort p (fun r => { r with sensed := l }))
  cleared : ∀ s p, P s → P (s.modPort p (fun r => { r with monitor := .idle }))
  reasserted : ∀ s p, P s → P (s.modPort p (fun r => r.reasserted))
  faulted : ∀ s p, P s → P (s.modPort p (fun r => { r.reasserted with monitor := .fault }))

variable {P : State → Prop} (k : Kept P) {s : State}

include k

omit k in
theorem Kept.foldl {α : Type} {f : State → α → State} (h : ∀ s a, P s → P (f s a)) (l : List α) (hs : P s) :
    P (l.foldl f s) := by
  induction l generalizing s with
  | nil => exact hs
  | cons a l ih => exact ih (h s a hs)

/-! ### Ops and Grant -/

theorem Kept.modEntry (n : Nat) (f : AuditEntry → AuditEntry) (h : P s) : P (s.modEntry n f) := k.audit _ _ h
theorem Kept.modCh (f : Changeover → Changeover) (h : P s) : P (modCh f s) := k.changeover _ _ h
theorem Kept.modCheck (f : Check → Check) (h : P s) : P (modCheck f s) := k.sched _ _ h
theorem Kept.dropSweep (i : Station) (h : P s) : P (dropSweep i s) := k.sched _ _ h
theorem Kept.startPace (h : P s) : P (startPace s) := k.sched _ _ h
theorem Kept.startBringUp (i : Station) (h : P s) : P (startBringUp i s) := k.link _ _ _ h
theorem Kept.startPoll (i : Station) (h : P s) : P (startPoll i s) := by
  unfold Machine.startPoll; exact k.link _ _ _ h

theorem Kept.dropUser (i : Station) (u : LinkUser) (h : P s) : P (dropUser i u s) := k.link _ _ _ h
theorem Kept.addWaiter (i : Station) (u : LinkUser) (h : P s) : P (addWaiter i u s) := k.link _ _ _ h
theorem Kept.takeWaiter (i : Station) (u : LinkUser) (h : P s) : P (takeWaiter i u s) := k.link _ _ _ h
theorem Kept.sendTool (e : EngId) (tag : Byte) (r : ToolReply) (h : P s) : P (sendTool e tag r s) := k.eng _ _ _ h

theorem Kept.requestSweep (i : Station) (h : P s) : P (requestSweep i s) := by
  unfold Machine.requestSweep; split
  · exact k.sched _ _ h
  · exact h

theorem Kept.sendRequest (i : Station) (q : StationRequest) (u : LinkUser) (h : P s) : P (sendRequest i q u s) := by
  unfold Machine.sendRequest
  exact k.link _ _ _ (k.stn s i (fun r => { r with nextSeq := r.nextSeq + 1#8 }) (fun _ => rfl) h)

theorem Kept.deliver (i : Station) (op : ToolOp) (r : ToolReply) (h : P s) : P (deliver i op r s) := by
  unfold Machine.deliver; split
  · exact k.eng _ _ _ (k.sendTool _ _ _ h)
  · exact h

theorem Kept.recompute (ks : List Nat) (h : P s) : P (recompute ks s) := k.audit _ _ h
theorem Kept.takeChanges (cs : List (Nat × Int)) (h : P s) : P (takeChanges cs s) := k.recompute _ (k.params _ _ h)
theorem Kept.commitValues (vs : List (Nat × Int)) (h : P s) : P (commitValues vs s) := k.recompute _ (k.params _ _ h)
theorem Kept.modSlot (i : Station) (f : ToolOp → ToolOp) (h : P s) : P (modSlot i f s) := k.stn _ _ _ (fun _ => rfl) h

theorem Kept.sendToolWrite (i : Station) (op : ToolOp) (h : P s) : P (sendToolWrite i op s) :=
  k.modSlot _ _ (k.sendRequest _ _ _ h)

theorem Kept.sendToolRead (i : Station) (op : ToolOp) (ph : Phase) (h : P s) : P (sendToolRead i op ph s) :=
  k.modSlot _ _ (k.sendRequest _ _ _ h)

theorem Kept.relayClose (i : Station) (h : P s) : P (relayClose i s) :=
  k.dropUser _ _ (k.stn _ _ _ (fun _ => rfl) (k.returnRel _ _ _ h))

theorem Kept.relayReport (i : Station) (op : ToolOp) (o : RelayOutcome) (h : P s) : P (relayReport i op o s) := by
  unfold Machine.relayReport
  simp only
  refine k.deliver _ _ _ ?_
  have hc : P (if o = .verified ∧ op.readBack = true then Machine.takeChanges op.changes s else s) := by
    split
    · exact k.takeChanges _ h
    · exact h
  revert hc
  generalize (if o = .verified ∧ op.readBack = true then Machine.takeChanges op.changes s else s) = s1
  intro hc
  split
  · refine k.post _ _ _ rfl ?_
    split
    · exact k.requestSweep _ hc
    · exact hc
  · exact hc

theorem Kept.startTool (i : Station) (h : P s) : P (startTool i s) := by
  unfold Machine.startTool
  split
  · exact k.dropUser _ _ h
  · split
    · split
      · exact k.sendToolWrite _ _ h
      · next e => exact k.sendToolWrite _ _ (k.grantRel _ _ _ _ e h)
      · next e => exact k.modSlot _ _ (k.grantRel _ _ _ _ e h)
      · exact k.relayReport _ _ _ (k.relayClose _ h)
    · exact k.sendToolRead _ _ _ h

theorem Kept.sendAccessRead (c : ChanId) (w : AccessWork) (h : P s) : P (sendAccessRead c w s) := k.sendRequest _ _ _ h

theorem Kept.startAccess (i : Station) (c : ChanId) (h : P s) : P (startAccess i c s) := by
  unfold Machine.startAccess; split
  · exact k.dropUser _ _ h
  · exact k.sendAccessRead _ _ (k.chan _ _ _ h)

theorem Kept.sendCheckRead (e : AuditEntry) (c : Check) (ph : CheckPhase) (h : P s) : P (sendCheckRead e c ph s) :=
  k.modCheck _ (k.sendRequest _ _ _ h)

theorem Kept.startAudit (i : Station) (h : P s) : P (startAudit i s) := by
  unfold Machine.startAudit
  repeat' split
  · exact k.dropUser _ _ h
  · exact k.dropUser _ _ h
  · exact k.sendCheckRead _ _ _ h
  · exact k.modCheck _ (k.sendRequest _ _ _ h)

theorem Kept.startStep (i : Station) (h : P s) : P (startStep i s) := by
  unfold Machine.startStep
  repeat' split
  · exact k.modCh _ (k.sendRequest _ _ _ h)
  · exact k.modCh _ (k.sendRequest _ _ _ h)
  · exact k.dropUser _ _ h
  · exact k.dropUser _ _ h

theorem Kept.startUser (i : Station) (u : LinkUser) (h : P s) : P (startUser i u s) := by
  cases u with
  | bringUp => exact h
  | changeover => exact k.startStep _ h
  | tool => exact k.startTool _ h
  | access c => exact k.startAccess _ _ h
  | audit => exact k.startAudit _ h
  | presence => exact k.sendRequest _ _ _ h

theorem Kept.grantLoop (i : Station) (n : Nat) (h : P s) : P (grantLoop i n s) := by
  induction n generalizing s with
  | zero => exact h
  | succ n ih =>
    simp only [Machine.grantLoop]
    repeat' split
    · exact h
    · exact ih (k.startUser _ _ (k.takeWaiter _ _ h))
    · exact h

theorem Kept.grant (i : Station) (h : P s) : P (grant i s) := k.grantLoop _ _ h
theorem Kept.place (i : Station) (u : LinkUser) (h : P s) : P (place i u s) := k.grant _ (k.addWaiter _ _ h)
theorem Kept.leaveLink (i : Station) (u : LinkUser) (h : P s) : P (Machine.leave i u s) := k.grant _ (k.dropUser _ _ h)

theorem Kept.endRelay (i : Station) (op : ToolOp) (o : RelayOutcome) (h : P s) : P (endRelay i op o s) :=
  k.relayReport _ _ _ (k.grant _ (k.relayClose _ h))

theorem Kept.endToolRead (i : Station) (op : ToolOp) (r : ToolReply) (h : P s) : P (endToolRead i op r s) :=
  k.deliver _ _ _ (k.grant _ (k.relayClose _ h))

theorem Kept.placePresence (i : Station) (h : P s) : P (placePresence i s) := by
  unfold Machine.placePresence; split
  · exact k.place _ _ h
  · exact h

theorem Kept.endAccess (c : ChanId) (w : AccessWork) (f : Option Cause) (h : P s) : P (endAccess c w f s) := by
  unfold Machine.endAccess
  simp only
  refine k.post _ _ _ rfl (k.chan _ _ _ ?_)
  split
  · exact k.leaveLink _ _ h
  · exact k.images _ _ _ _ _ (k.leaveLink _ _ h)

/-! ### Audit -/

theorem Kept.beginCheck (n : Nat) (b : Bool) (h : P s) : P (beginCheck n b s) := by
  unfold Machine.beginCheck
  repeat' split
  · exact k.startPace h
  · exact k.place _ _ (k.startPace (k.sched _ _ h))
  · exact k.startPace h

theorem Kept.choose (h : P s) : P (choose s) := by
  unfold Machine.choose
  simp only
  split
  · exact k.beginCheck _ _ (k.sched _ _ h)
  · split
    · exact k.beginCheck _ _ (k.sched _ _ (k.sched _ _ h))
    · exact k.startPace (k.sched _ _ h)

theorem Kept.chooseIfDue (h : P s) : P (chooseIfDue s) := by
  unfold Machine.chooseIfDue; split
  · exact k.choose h
  · exact h

theorem Kept.endCheck (r : CheckResult) (h : P s) : P (endCheck r s) := by
  unfold Machine.endCheck
  split
  · exact h
  · next c _ =>
    simp only
    refine k.chooseIfDue (k.sched _ _ ?_)
    have h1 := k.leaveLink c.station .audit h
    generalize (if c.discard = true then CheckResult.nothing else r) = r1
    have h2 : P (if r1 = .sameUnreliable then
        (Machine.leave c.station .audit s).modStn c.station (fun st => { st with sumUnreliable := true })
        else Machine.leave c.station .audit s) := by
      by_cases hr : r1 = .sameUnreliable
      · rw [if_pos hr]; exact k.stn _ _ (fun st => { st with sumUnreliable := true }) (fun _ => rfl) h1
      · rw [if_neg hr]; exact h1
    revert h2
    generalize (if r1 = .sameUnreliable then
        (Machine.leave c.station .audit s).modStn c.station (fun st => { st with sumUnreliable := true })
        else Machine.leave c.station .audit s) = s1
    intro h2
    have h3 := k.modEntry c.entry (fun e => e.after r1 s1.guardTime) h2
    revert h3
    generalize s1.modEntry c.entry (fun e => e.after r1 s1.guardTime) = s2
    intro h3
    have h4 := k.post s2 (.station c.station) (.drift c.entry) rfl h3
    revert h4
    generalize Machine.post (.station c.station) (.drift c.entry) s2 = s3
    intro h4
    repeat' split
    all_goals first | exact h3 | exact h4

theorem Kept.auditHold (set : List Station) (h : P s) : P (auditHold set s) := by
  unfold Machine.auditHold holdCheck
  have h1 : P (suspendEntries set s) := k.audit _ _ h
  repeat' split
  · exact h1
  · exact k.modCheck _ h1
  · exact k.endCheck _ h1
  · exact h1

theorem Kept.auditRelease (set : List Station) (h : P s) : P (auditRelease set s) := k.audit _ _ h

theorem Kept.resolveAll (h : P s) : P (resolveAll s) := by
  have h1 : P { s with audit := s.audit.map (fun (e : AuditEntry) => e.resolve s.recipes s.images s.activeFormat) } :=
    k.audit _ _ h
  exact k.sched _ _ h1

theorem Kept.auditPaceExpiry (h : P s) : P (auditPaceExpiry s) := by
  unfold Machine.auditPaceExpiry; split
  · exact k.chooseIfDue (k.sched _ _ h)
  · exact h

/-! ### Controller -/

theorem Kept.dropStep (h : P s) : P (dropStep s) := by
  unfold Machine.dropStep; split
  · exact k.leaveLink _ _ (k.returnRel _ _ _ h)
  · exact h

theorem Kept.setFormats (set : List Station) (f : FormatState) (h : P s) : P (setFormats set f s) :=
  Kept.foldl (fun s i hs => k.stn s i (fun r => { r with format := f }) (fun _ => rfl) hs) set h

theorem Kept.failOperation (f : Failure) (h : P s) : P (failOperation f s) := by
  unfold Machine.failOperation
  simp only
  split
  · exact k.post _ _ _ rfl (k.changeover _ _ (k.auditRelease _ (k.dropStep h)))
  · exact k.post _ _ _ rfl (k.modCh _ (k.setFormats _ _ (k.dropStep h)))

theorem Kept.failFromOutside (f : Failure) (h : P s) : P (failFromOutside f s) := by
  unfold Machine.failFromOutside
  repeat' split
  · exact k.modCh _ h
  · exact k.failOperation _ h
  · exact h

theorem Kept.succeed (h : P s) : P (succeed s) := by
  unfold Machine.succeed
  split
  · exact k.post _ _ _ rfl (k.changeover _ _ (k.auditRelease _ (k.setFormats _ _ (k.resolveAll
      (k.commitValues _ (k.active _ _ h))))))
  · exact k.post _ _ _ rfl (k.changeover _ _ (k.auditRelease _ (k.setFormats _ _ (k.commitValues _ h))))
  · exact k.post _ _ _ rfl (k.changeover _ _ (k.auditRelease _ (k.modEntry _ _ h)))

theorem Kept.beginStep (h : P s) : P (beginStep s) := by
  unfold Machine.beginStep
  simp only
  repeat' split
  · exact k.modCh _ h
  · exact k.place _ _ (k.modCh _ h)
  all_goals exact k.failOperation _ (k.modCh _ h)

theorem Kept.beginWork (st : ChState) (h : P s) : P (beginWork st s) := k.beginStep (k.modCh _ h)

theorem Kept.nextStep (h : P s) : P (nextStep s) := by
  unfold Machine.nextStep
  simp only
  repeat' split
  · exact k.beginStep (k.modCh _ h)
  · exact k.beginWork _ h
  · exact k.succeed h

theorem Kept.finishStep (st : Step) (h : P s) : P (finishStep st s) :=
  k.nextStep (k.leaveLink _ _ (k.returnRel _ _ _ h))

theorem Kept.writeNext (st : Step) (h : P s) : P (writeNext st s) := by
  unfold Machine.writeNext; split
  · exact k.modCh _ (k.sendRequest _ _ _ h)
  · exact k.finishStep _ h

theorem Kept.askStepRelease (st : Step) (h : P s) : P (askStepRelease st s) := by
  unfold Machine.askStepRelease
  split
  · exact k.writeNext _ h
  · next e => exact k.writeNext _ (k.grantRel _ _ _ _ e h)
  · next e => exact k.modCh _ (k.grantRel _ _ _ _ e h)
  · exact k.failOperation _ h

theorem Kept.stateChecked (st : Step) (m : Option PlcMode) (h : P s) : P (stateChecked st m s) := by
  unfold Machine.stateChecked; split
  · exact k.failOperation _ h
  · exact k.askStepRelease _ h

theorem Kept.stepAcked (st : Step) (n : Nat) (h : P s) : P (stepAcked st n s) := by
  unfold Machine.stepAcked; split
  · exact k.failOperation _ h
  · exact k.writeNext _ (k.modCh _ h)

theorem Kept.readNext (st : Step) (h : P s) : P (readNext st s) := by
  unfold Machine.readNext; split
  · exact k.modCh _ (k.sendRequest _ _ _ h)
  · exact k.finishStep _ h

theorem Kept.stepRead (st : Step) (ws : List Word) (h : P s) : P (stepRead? st ws s) := by
  unfold stepRead?
  simp only
  split
  · split
    · split
      · exact k.readNext _ (k.modCh _ h)
      · exact k.failOperation _ h
    · exact k.finishStep _ h
  · split
    · exact k.readNext _ (k.modCh _ h)
    · split
      · split
        · exact k.failOperation _ (k.modCh _ h)
        · exact k.finishStep _ (k.modCh _ h)
      · split
        · exact k.finishStep _ (k.modCh _ h)
        · exact k.failOperation _ (k.modCh _ h)
      · exact k.finishStep _ (k.modCh _ h)

theorem Kept.controllerLost (i : Station) (c : Cause) (h : P s) : P (controllerLost i c s) := by
  unfold Machine.controllerLost
  simp only
  generalize (match s.changeover.step with
      | some st => decide (st.station = i)
      | none => false) = own
  repeat' split
  all_goals first | exact k.failOperation _ h | exact k.failFromOutside _ h | exact h

/-! ### Stations -/

theorem Kept.endToolBy (i : Station) (c : Cause) (h : P s) : P (endToolBy i c s) := by
  unfold Machine.endToolBy
  split
  · exact k.dropUser _ _ h
  · split
    · exact k.endRelay _ _ _ h
    · exact k.endToolRead _ _ _ h

theorem Kept.endAccessBy (c : ChanId) (f : Cause) (h : P s) : P (endAccessBy c f s) := by
  unfold Machine.endAccessBy; split
  · exact h
  · exact k.endAccess _ _ _ h

theorem Kept.endByLink (i : Station) (u : LinkUser) (h : P s) : P (endByLink i u s) := by
  cases u with
  | tool => exact k.endToolBy _ _ h
  | access c => exact k.endAccessBy _ _ h
  | audit => exact k.endCheck _ h
  | changeover => exact h
  | presence => exact h
  | bringUp => exact h

theorem Kept.endByQuarantine (i : Station) (u : LinkUser) (h : P s) : P (endByQuarantine i u s) := by
  cases u with
  | tool => exact k.endToolBy _ _ h
  | audit => exact k.endCheck _ h
  | access c => exact h
  | changeover => exact h
  | presence => exact h
  | bringUp => exact h

theorem Kept.goDown (i : Station) (h : P s) : P (goDown i s) :=
  k.startBringUp _ (k.dropSweep _ (k.leave _ _ _ (by decide) (k.stn _ _ _ (fun _ => rfl) h)))

theorem Kept.linkLoss (i : Station) (own : State → State) (ho : ∀ s, P s → P (own s)) (h : P s) :
    P (linkLoss i own s) :=
  k.post _ _ _ rfl (k.controllerLost _ _ (Kept.foldl (fun _ u hs => k.endByLink i u hs) _ (ho _ (k.goDown _ h))))

theorem Kept.quarantineOnline (i : Station) (h : P s) : P (quarantineOnline i s) := by
  unfold Machine.quarantineOnline
  refine k.grant _ (k.controllerLost _ _ (Kept.foldl (fun s u hs => k.endByQuarantine i u hs) _
    (Kept.foldl (fun s u hs => k.dropUser i u hs) _ (k.post _ _ _ rfl (k.dropSweep _ (k.leave _ _ _ (by decide) ?_))))))
  exact k.stn _ _ _ (fun _ => rfl) h

theorem Kept.faultPort (p : Port) (h : P s) : P (faultPort p s) := by
  unfold Machine.faultPort
  have h1 := k.faulted s p h
  simp only
  split
  · exact h1
  · split
    · exact k.quarantineOnline _ h1
    · split
      · exact h1
      · exact k.post _ _ _ rfl (k.stn _ _ _ (fun _ => rfl) h1)
    · exact h1

theorem Kept.releaseStation (i : Station) (h : P s) : P (releaseStation i s) := by
  unfold Machine.releaseStation
  have h1 : P (match s.portOf i with
      | some p => s.modPort p (fun r => { r with monitor := .idle })
      | none => s) := by
    split
    · exact k.cleared _ _ h
    · exact h
  exact Kept.foldl (fun s u hs => k.endByLink i u hs) _ (k.goDown _ (Kept.foldl (fun s u hs => k.dropUser i u hs) _ h1))

theorem Kept.trainStep (i : Station) (a b : Nat) (h : P s) : P (trainStep i a b s) :=
  k.sendRequest _ _ _ (k.link _ _ _ h)

theorem Kept.setRate (i : Station) (r : Nat) (h : P s) : P (setRate i r s) := k.stn _ _ _ (fun _ => rfl) h

theorem Kept.trainFailed (i : Station) (t : Training) (ho : (s.stn i).state ≠ .online) (h : P s) :
    P (trainFailed i t s) := by
  unfold Machine.trainFailed
  split
  · exact k.link _ _ _ (k.setRate _ _ h)
  · refine k.startBringUp _ (k.enter _ _ _ (Or.inl ?_) (k.setRate _ _ h))
    simpa [Machine.setRate] using ho

theorem Kept.trainDone (i : Station) (t : Training) (h : P s) : P (trainDone i t s) :=
  k.post _ _ _ rfl (k.requestSweep _ (k.placePresence _ (k.link _ _ _ (k.enter _ _ _ (Or.inr rfl)
    (k.stn _ _ _ (fun _ => rfl) h)))))

theorem Kept.quarantineDown (i : Station) (r : QReason) (ho : (s.stn i).state ≠ .online) (h : P s) :
    P (quarantineDown i r s) := by
  unfold Machine.quarantineDown
  refine k.placePresence _ (k.post _ _ _ rfl (k.link _ _ _ (k.enter _ _ _ (Or.inl ?_) (k.stn _ _ _ (fun _ => rfl) h))))
  simpa using ho

theorem Kept.identTaken (i : Station) (a b c : Word) (d : BitVec 32) (e f : Byte) (ho : (s.stn i).state ≠ .online)
    (h : P s) : P (identTaken i a b c d e f s) := by
  unfold Machine.identTaken
  simp only
  split
  · exact k.quarantineDown _ _ (by simpa using ho) (k.stn _ _ _ (fun _ => rfl) h)
  · split
    · exact k.trainStep _ _ _ (k.enter _ _ _ (Or.inl (by simpa using ho)) (k.stn _ _ _ (fun _ => rfl) h))
    · exact k.quarantineDown _ _ (by simpa using ho) (k.stn _ _ _ (fun _ => rfl) h)

theorem Kept.bringUpResult (i : Station) (r : TxResult) (h : P s) : P (bringUpResult i r s) := by
  unfold Machine.bringUpResult
  split
  · next e =>
    have ho : (s.stn i).state ≠ .online := by rw [e]; decide
    split
    · exact k.identTaken _ _ _ _ _ _ _ ho h
    · exact k.link _ _ _ h
  · next e =>
    have ho : (s.stn i).state ≠ .online := by rw [e]; decide
    split
    · exact h
    · split
      · exact k.sendRequest _ _ _ (k.link _ _ _ (k.setRate _ _ h))
      · split
        · split
          · exact k.sendRequest _ _ _ (k.link _ _ _ h)
          · exact k.trainDone _ _ h
        · exact k.trainFailed _ _ ho h
      · exact k.trainFailed _ _ ho h
  · exact h

theorem Kept.presenceResult (i : Station) (r : TxResult) (h : P s) : P (presenceResult i r s) := by
  unfold Machine.presenceResult; split
  · exact k.placePresence _ (k.leaveLink _ _ h)
  · exact k.leaveLink _ _ (k.startPoll _ h)

theorem Kept.relayResult (i : Station) (op : ToolOp) (q : StationRequest) (r : TxResult) (h : P s) :
    P (relayResult i op q r s) := by
  unfold Machine.relayResult
  split
  · simp only
    repeat' split
    · exact k.endRelay _ _ _ (k.modSlot _ _ h)
    · exact k.sendToolWrite _ _ (k.modSlot _ _ h)
    · exact k.sendToolRead _ _ _ (k.modSlot _ _ h)
    · exact k.endRelay _ _ _ (k.modSlot _ _ h)
  · repeat' split
    all_goals exact k.endRelay _ _ _ h
  · simp only
    repeat' split
    · exact k.endRelay _ _ _ (k.modSlot _ _ h)
    · exact k.sendToolRead _ _ _ (k.modSlot _ _ h)
    · exact k.endRelay _ _ _ (k.modSlot _ _ h)
    · exact k.endRelay _ _ _ (k.modSlot _ _ h)
  · exact k.endRelay _ _ _ h

theorem Kept.toolReadResult (i : Station) (op : ToolOp) (r : TxResult) (h : P s) : P (toolReadResult i op r s) := by
  unfold Machine.toolReadResult
  split
  · simp only
    split
    · exact k.sendToolRead _ _ _ (k.modSlot _ _ h)
    · exact k.endToolRead _ _ _ (k.modSlot _ _ h)
  · exact k.endToolRead _ _ _ h

theorem Kept.toolResult (i : Station) (q : StationRequest) (r : TxResult) (h : P s) : P (toolResult i q r s) := by
  unfold Machine.toolResult
  split
  · exact k.leaveLink _ _ h
  · split
    · exact k.relayResult _ _ _ _ h
    · exact k.toolReadResult _ _ _ h

theorem Kept.accessResult (i : Station) (c : ChanId) (r : TxResult) (h : P s) : P (accessResult i c r s) := by
  unfold Machine.accessResult
  split
  · exact k.leaveLink _ _ h
  · split
    · simp only
      split
      · exact k.sendAccessRead _ _ (k.chan _ _ _ h)
      · exact k.endAccess _ _ _ h
    · exact k.endAccess _ _ _ h

theorem Kept.checkResult (i : Station) (r : TxResult) (h : P s) : P (checkResult i r s) := by
  unfold Machine.checkResult
  split
  · exact k.leaveLink _ _ h
  · split
    · exact k.endCheck _ h
    · split
      · split
        · exact k.endCheck _ h
        · split
          · exact k.endCheck _ h
          · exact k.sendCheckRead _ _ _ h
      · simp only
        split
        · exact k.sendCheckRead _ _ _ (k.modCheck _ h)
        · exact k.endCheck _ h
      · exact k.endCheck _ h

theorem Kept.stepResult (i : Station) (q : StationRequest) (r : TxResult) (h : P s) : P (stepResult i q r s) := by
  unfold Machine.stepResult
  split
  · exact k.leaveLink _ _ h
  · split
    · exact k.stepAcked _ _ h
    · exact k.stateChecked _ _ h
    · exact k.stepRead _ _ h
    · exact k.failOperation _ h

theorem Kept.ownerResult (i : Station) (u : LinkUser) (q : StationRequest) (r : TxResult) (h : P s) :
    P (ownerResult i u q r s) := by
  cases u with
  | bringUp => exact k.bringUpResult _ _ h
  | presence => exact k.presenceResult _ _ h
  | tool => exact k.toolResult _ _ _ h
  | access c => exact k.accessResult _ _ _ h
  | audit => exact k.checkResult _ _ h
  | changeover => exact k.stepResult _ _ _ h

theorem Kept.compareCounter (i : Station) (v : Word) (h : P s) : P (compareCounter i v s) := by
  unfold Machine.compareCounter
  split
  · split
    · exact k.stn _ _ _ (fun _ => rfl) h
    · split
      · exact h
      · simp only
        have h1 := k.post _ (.station i) (.unexpectedChange (v - (s.stn i).expected)) rfl
          (k.stn s i (fun r => { r with expected := v }) (fun _ => rfl) h)
        split
        · exact k.requestSweep _ h1
        · exact h1
  · exact h

theorem Kept.linkEffects (i : Station) (q : StationRequest) (r : TxResult) (h : P s) : P (linkEffects i q r s) := by
  unfold Machine.linkEffects
  split
  · exact k.compareCounter _ _ (k.stn _ _ _ (fun _ => rfl) h)
  · exact k.stn _ _ _ (fun _ => rfl) h
  · exact k.stn _ _ _ (fun _ => rfl) h
  · exact h

theorem Kept.countMissed (i : Station) (r : TxResult) (h : P s) : P (countMissed i r s) := by
  unfold Machine.countMissed; split
  · exact k.stn _ _ _ (fun _ => rfl) h
  · exact h

theorem Kept.endTransaction (i : Station) (t : Transaction) (r : TxResult) (h : P s) : P (endTransaction i t r s) := by
  unfold Machine.endTransaction
  simp only
  have h1 := k.linkEffects i t.request r (k.countMissed i r (k.link s i (fun l => { l with inFlight := none }) h))
  split
  · refine k.linkLoss _ _ (fun s hs => ?_) h1
    split
    · exact hs
    · exact k.ownerResult _ _ _ _ hs
    · exact hs
  · split
    · exact k.ownerResult _ _ _ _ h1
    · exact k.grant _ h1

theorem Kept.stationFrame (i : Station) (seq : Byte) (r : StationReply) (h : P s) : P (stationFrame i seq r s) := by
  unfold Machine.stationFrame
  split
  · exact h
  · split
    · exact k.endTransaction _ _ _ h
    · exact h

/-! ### The port map -/

omit k in
/-- Clearing a record leaves the station DISABLED, and every other station's state. -/
theorem clearRecord_state (i j : Station) :
    ((clearRecord i s).stn j).state = if i = j then .disabled else (s.stn j).state := by
  by_cases e : i = j
  · subst e; simp [clearRecord, StationRec.cleared]
  · simp [clearRecord, stn_modStn_ne _ _ e, e]

omit k in
/-- Taking a station to DISABLED ends what held or awaited its link, and leaves every other station's state. -/
theorem disableStation_state (i j : Station) :
    ((disableStation i s).stn j).state = if i = j then .disabled else (s.stn j).state := by
  have h2 : ∀ a b : State, a.outside = b.outside → (a.stn j).state = (b.stn j).state := by
    intro a b hab
    have := congrArg (fun x => (x.stations[j]).state) hab
    simpa [State.outside, State.stn, StationRec.core] using this
  simp only [disableStation]
  rw [h2 _ _ (controllerLost_outside _ _ _), h2 _ _ (foldl_outside _ (fun s u => endByLink_outside i u s) _ _),
    h2 _ _ (modLink_outside _ _ _), h2 _ _ (dropSweep_outside _ _), h2 _ _ (dropRelease_outside _ _)]
  have h3 : ∀ s : State, (s.modStn i (fun r => { r with state := .disabled }) |>.stn j).state
      = if i = j then .disabled else (s.stn j).state := by
    intro s
    by_cases e : i = j
    · subst e; simp
    · simp [stn_modStn_ne _ _ e, e]
  unfold setStState
  simp only
  split
  · rw [h2 _ _ (syncMonitor_outside _ _), h3]
  · exact h3 s

theorem Kept.disableStation (i : Station) (h : P s) : P (disableStation i s) := by
  unfold Machine.disableStation
  exact k.controllerLost _ _ (Kept.foldl (fun s u hs => k.endByLink i u hs) _
    (k.link _ _ _ (k.dropSweep _ (k.leave _ _ _ (by decide) h))))

theorem Kept.clearRecord (i : Station) (ho : (s.stn i).state ≠ .online) (h : P s) : P (clearRecord i s) :=
  k.off _ _ _ ho (by simp [StationRec.cleared]) h

theorem Kept.enableStation (i : Station) (ho : (s.stn i).state ≠ .online) (h : P s) : P (enableStation i s) := by
  unfold Machine.enableStation
  refine k.startBringUp _ (k.enter _ _ _ (Or.inl ?_) (k.clearRecord i ho h))
  rw [clearRecord_state, if_pos rfl]; decide

/-! ### Terminals and tools -/

omit k in
theorem Kept.whenRunning {f : State → State} (hf : P s → P (f s)) (h : P s) : P (whenRunning f s) := by
  unfold Machine.whenRunning; split
  · exact hf h
  · exact h

theorem Kept.acceptLevel (x : InputId) (h : P s) : P (acceptLevel x s) := by
  unfold Machine.acceptLevel
  simp only
  have h1 : P (if (s.inputs.get x).mode.reports (s.inputs.get x).raw = true then
      Machine.post (.input x) (.inputChange (s.inputs.get x).raw)
        (s.setInput x { s.inputs.get x with accepted := (s.inputs.get x).raw })
      else s.setInput x { s.inputs.get x with accepted := (s.inputs.get x).raw }) := by
    split
    · exact k.post _ _ _ rfl (k.input _ _ _ h)
    · exact k.input _ _ _ h
  split
  · exact k.failFromOutside _ h1
  · exact k.failFromOutside _ h1
  · exact h1

theorem Kept.rawChange (x : InputId) (l : Bool) (h : P s) : P (rawChange x l s) := by
  unfold Machine.rawChange
  simp only
  repeat' split
  · exact h
  · exact k.acceptLevel _ (k.input _ _ _ h)
  · exact k.input _ _ _ h

theorem Kept.portReady (r : ReleaseHolder) (h : P s) : P (portReady r s) := by
  unfold Machine.portReady
  repeat' split
  · exact k.sendToolWrite _ _ h
  · exact h
  · exact h
  · exact k.writeNext _ h
  · exact h
  · exact h

theorem Kept.settleExpiry (p : Port) (h : P s) : P (settleExpiry p s) := by
  refine Kept.whenRunning (fun h => ?_) h
  simp only
  repeat' split
  · exact k.portReady _ (k.settled _ _ h)
  · exact k.settled _ _ h
  · exact h

theorem Kept.holderExpired (r : ReleaseHolder) (h : P s) : P (holderExpired r s) := by
  unfold Machine.holderExpired
  repeat' split
  · exact k.modSlot _ _ h
  · exact k.endRelay _ _ _ h
  · exact h
  · exact k.failFromOutside _ h

theorem Kept.limitExpiry (p : Port) (h : P s) : P (limitExpiry p s) := by
  refine Kept.whenRunning (fun h => ?_) h
  simp only
  repeat' split
  · exact k.holderExpired _ (k.sync _ _ (k.reasserted _ _ h))
  · exact k.sync _ _ (k.reasserted _ _ h)
  · exact h

theorem Kept.fillSlot (i : Station) (op : ToolOp) (h : P s) : P (fillSlot i op s) :=
  k.place _ _ (k.eng _ _ _ (k.stn _ _ _ (fun _ => rfl) h))

theorem Kept.strike (e : EngId) (p : Policy) (i : Station) (b : Nat) (h : P s) : P (strike e p i b s) := by
  unfold Machine.strike
  simp only
  have h1 := k.eng _ e (fun x => x.struck (Machine.post (.engineering e) (.refusal p i b) s).timing.strikeWindow)
    (k.post s (.engineering e) (.refusal p i b) rfl h)
  split
  · exact k.post _ _ _ rfl (k.eng _ _ _ h1)
  · exact h1

theorem Kept.refusePolicy (e : EngId) (tag : Byte) (p : Policy) (o : Nat) (i : Station) (b : Nat) (h : P s) :
    P (refusePolicy e tag p o i b s) := k.strike _ _ _ _ (k.sendTool _ _ _ h)

theorem Kept.takeToolWrite (e : EngId) (tag : Byte) (i : Station) (r : ToolWriteReq) (h : P s) :
    P (takeToolWrite e tag i r s) := by
  unfold Machine.takeToolWrite
  split
  · exact k.sendTool _ _ _ h
  · split
    · exact k.refusePolicy _ _ _ _ _ _ h
    · exact k.refusePolicy _ _ _ _ _ _ h
    · exact k.fillSlot _ _ h
    · split
      · exact k.refusePolicy _ _ _ _ _ _ h
      · exact k.sendTool _ _ _ h
      · exact k.fillSlot _ _ h

theorem Kept.takeToolRead (e : EngId) (tag : Byte) (i : Station) (r : ToolReadReq) (h : P s) :
    P (takeToolRead e tag i r s) := by
  unfold Machine.takeToolRead
  split
  · exact k.sendTool _ _ _ h
  · exact k.fillSlot _ _ h

theorem Kept.toolFrame (e : EngId) (tag : Byte) (q : ToolRequest) (h : P s) : P (toolFrame e tag q s) := by
  refine Kept.whenRunning (fun h => ?_) h
  split
  · exact h
  · exact h
  · exact k.sendTool _ _ _ h
  · exact k.sendTool _ _ _ h
  · unfold Machine.readyFrame
    repeat' split
    · exact k.sendTool _ _ _ h
    · exact k.sendTool _ _ _ h
    · exact k.takeToolRead _ _ _ _ h
    · exact k.sendTool _ _ _ h
    · exact k.takeToolWrite _ _ _ _ h
    · exact k.sendTool _ _ _ h

end Sys2Proof.Machine
end

