-- ==== Sys2Proof/Laws/Invariants.lean ====
section
/-! SUPPORT. The elementary updates keep the event queue in order, leave every image that no channel captures as it is,
and keep every inhibit output asserted unless its station is ONLINE and an operation holds the release. -/

namespace Sys2Proof.Machine

open Sys2Proof

/-! ### Events -/

theorem key_again (e : Event) (t : Nat) (src : Source) (d : Detail) (h : e.key = (src, d.kind)) :
    (e.again t d).key = e.key := by
  rw [h]; simp only [Event.key, Event.again] at *; simp [Prod.mk.injEq] at h; simp [h.1]

/-- Posting gathers into the record of its key or adds one at the end, so the keys are those before, or with the new
one behind them when none was there. -/
theorem keys_postEvent (t : Nat) (src : Source) (d : Detail) (es : List Event) :
    (postEvent t src d es).map Event.key =
      if (src, d.kind) ∈ es.map Event.key then es.map Event.key else es.map Event.key ++ [(src, d.kind)] := by
  induction es with
  | nil => rfl
  | cons e es ih =>
    simp only [postEvent]
    by_cases h : e.key = (src, d.kind)
    · simp [h, key_again e t src d h]
    · simp only [if_neg h, List.map_cons, ih, List.mem_cons]
      have h3 : (src, d.kind) ≠ e.key := fun x => h x.symm
      by_cases h2 : (src, d.kind) ∈ es.map Event.key <;> simp [h2, h3]

theorem mem_postEvent (t : Nat) (src : Source) (d : Detail) (es : List Event) (x : Event)
    (h : x ∈ postEvent t src d es) :
    x ∈ es ∨ (x.key = (src, d.kind) ∧ (x.count = 1 ∨ ∃ e ∈ es, x.count = min 255 (e.count + 1))) := by
  induction es with
  | nil =>
    simp only [postEvent, List.mem_singleton] at h
    subst h; exact Or.inr ⟨rfl, Or.inl rfl⟩
  | cons e es ih =>
    simp only [postEvent] at h
    split at h
    · next hk =>
      rcases List.mem_cons.mp h with rfl | h
      · exact Or.inr ⟨by rw [key_again _ _ _ _ hk, hk], Or.inr ⟨e, by simp, rfl⟩⟩
      · exact Or.inl (by simp [h])
    · rcases List.mem_cons.mp h with rfl | h
      · exact Or.inl (by simp)
      · rcases ih h with h | ⟨hk, h | ⟨e', he, hc⟩⟩
        · exact Or.inl (by simp [h])
        · exact Or.inr ⟨hk, Or.inl h⟩
        · exact Or.inr ⟨hk, Or.inr ⟨e', by simp [he], hc⟩⟩

/-- A post by a source of one of its kinds keeps the queue in order. -/
theorem eventsOk_postEvent (t : Nat) (src : Source) (d : Detail) (es : List Event)
    (hp : src.posts d.kind = true) (h : EventsOk es) : EventsOk (postEvent t src d es) := by
  refine ⟨?_, fun x hx => ?_⟩
  · rw [keys_postEvent]
    split
    · exact h.1
    · next hn => exact List.nodup_append.mpr ⟨h.1, by simp, by rintro a ha b hb rfl; simp at hb; exact hn (hb ▸ ha)⟩
  · rcases mem_postEvent _ _ _ _ _ hx with h1 | ⟨hk, h1⟩
    · exact h.2 x h1
    · refine ⟨?_, ?_⟩
      · simp only [Event.key, Prod.mk.injEq] at hk; rw [hk.1, hk.2]; exact hp
      · rcases h1 with h1 | ⟨e, he, hc⟩
        · omega
        · have := h.2 e he; omega

theorem events_kept : Kept (fun s => EventsOk s.events) where
  link _ _ _ h := h
  stn _ _ _ _ h := h
  off _ _ _ _ _ h := h
  eng _ _ _ h := h
  chan _ _ _ h := h
  input _ _ _ h := h
  audit _ _ h := h
  sched _ _ h := h
  changeover _ _ h := h
  params _ _ h := h
  images _ _ _ _ _ h := h
  active _ _ h := h
  post _ _ _ hp h := eventsOk_postEvent _ _ _ _ hp h
  sync _ _ h := h
  grantRel s i x b _ h := by unfold grantRelease; split <;> exact h
  returnRel s i x h := by unfold returnRelease; split <;> [exact h; (split <;> exact h)]
  enter s i st _ h := by unfold setStState; simp only; split <;> exact h
  leave s i st _ h := by
    have h1 : EventsOk (setStState i st s).events := by unfold setStState; simp only; split <;> exact h
    unfold dropRelease; split <;> [exact h1; (split <;> exact h1)]
  settled _ _ h := h
  sensed _ _ _ h := h
  cleared _ _ h := h
  reasserted _ _ h := h
  faulted _ _ h := h

/-! ### Images -/

/-- Every image that no channel was capturing stands as it stood in `ims`. -/
def ImagesFrom (ims : List Image) (t : State) : Prop :=
  ∀ (n : Nat) (im : Image), ims[n]? = some im → im.capture = none → t.images[n]? = some im

theorem ImagesFrom.captureEnds {ims : List Image} {s : State} (h : ImagesFrom ims s) (id : Nat) (c : ChanId)
    (got : List Word) (f : Option Cause) :
    ImagesFrom ims { s with images := modImage s.images id (Image.captureEnds c got f) } := by
  intro n im hn hc
  simp only [modImage, List.getElem?_map, h n im hn hc, Option.map_some, captureEnds_none c got f im hc, ite_self]

theorem images_kept (ims : List Image) : Kept (ImagesFrom ims) where
  link _ _ _ h := h
  stn _ _ _ _ h := h
  off _ _ _ _ _ h := h
  eng _ _ _ h := h
  chan _ _ _ h := h
  input _ _ _ h := h
  audit _ _ h := h
  sched _ _ h := h
  changeover _ _ h := h
  params _ _ h := h
  images _ id c got f h := h.captureEnds id c got f
  active _ _ h := h
  post _ _ _ _ h := h
  sync _ _ h := h
  grantRel s i x b _ h := by unfold grantRelease; split <;> exact h
  returnRel s i x h := by unfold returnRelease; split <;> [exact h; (split <;> exact h)]
  enter s i st _ h := by unfold setStState; simp only; split <;> exact h
  leave s i st _ h := by
    have h1 : ImagesFrom ims (setStState i st s) := by unfold setStState; simp only; split <;> exact h
    unfold dropRelease; split <;> [exact h1; (split <;> exact h1)]
  settled _ _ h := h
  sensed _ _ _ h := h
  cleared _ _ h := h
  reasserted _ _ h := h
  faulted _ _ h := h

/-! ### Releases -/

theorem portOf_some {s : State} {i : Station} {p : Port} (h : s.portOf i = some p) : s.portMap[p] = some i := by
  simpa using List.find?_some h

theorem portOf_of_map {s : State} {i : Station} {p : Port} (hm : PortMapOk s.portMap) (h : s.portMap[p] = some i) :
    s.portOf i = some p := by
  cases e : s.portOf i with
  | none =>
    have := List.find?_eq_none.mp e p (by simp [allPorts])
    simp [h] at this
  | some q => rw [hm q p i (portOf_some e) h]

/-- The port map is sound, and every output is asserted unless its station is ONLINE and the release is held. -/
def ReleasesSafe (s : State) : Prop := PortMapOk s.portMap ∧ ReleasesOk s

/-- Equal port maps, ports and station states. -/
theorem ReleasesSafe.congr {s t : State} (h : ReleasesSafe s) (hm : t.portMap = s.portMap) (hp : t.ports = s.ports)
    (hs : ∀ i, (t.stn i).state = (s.stn i).state) : ReleasesSafe t := by
  refine ⟨hm ▸ h.1, fun p => ?_⟩
  have hp' : t.port p = s.port p := by simp only [State.port, hp]
  rw [hp', hm]
  refine ⟨(h.2 p).1, fun hr => ?_⟩
  obtain ⟨i, h1, h2⟩ := (h.2 p).2 hr
  exact ⟨i, h1, by rw [hs]; exact h2⟩

/-- One port changed, to a sound record that is not released unless it was. -/
theorem ReleasesSafe.modPort {s : State} (h : ReleasesSafe s) (p : Port) (f : InhibitPort → InhibitPort)
    (hs : (f (s.port p)).sound)
    (hd : (f (s.port p)).driven = .released → ∃ i, s.portMap[p] = some i ∧ (s.stn i).state = .online) :
    ReleasesSafe (s.modPort p f) := by
  refine ⟨h.1, fun q => ?_⟩
  by_cases e : p = q
  · subst e; rw [port_modPort_self]; exact ⟨hs, hd⟩
  · rw [port_modPort_ne _ _ e]; exact h.2 q

theorem monitorNext_fault (p : InhibitPort) (c : Bool) : monitorNext p c = .fault ↔ p.monitor = .fault := by
  unfold monitorNext; split
  · simp [*]
  · next h => 
    constructor
    · intro h2; repeat' split at h2
      all_goals simp_all
    · intro h2; exact absurd h2 h

theorem sound_monitor {p : InhibitPort} {m : Monitor} (h : p.sound) (hm : m = .fault → p.monitor = .fault) :
    ({ p with monitor := m } : InhibitPort).sound := by
  unfold InhibitPort.sound at *
  split at h <;> simp_all

theorem ReleasesSafe.sync {s : State} (h : ReleasesSafe s) (p : Port) : ReleasesSafe (syncMonitor p s) :=
  h.modPort p _ (sound_monitor (h.2 p).1 (monitorNext_fault _ _).mp) (fun hd => (h.2 p).2 hd)

theorem sound_reasserted (p : InhibitPort) : p.reasserted.sound := by
  simp [InhibitPort.sound, InhibitPort.reasserted]

theorem ReleasesSafe.reassert {s : State} (h : ReleasesSafe s) (p : Port) :
    ReleasesSafe (s.modPort p (fun r => r.reasserted)) :=
  h.modPort p _ (sound_reasserted _) (by simp [InhibitPort.reasserted])

/-- A released port is the port of an ONLINE station. -/
theorem ReleasesSafe.online {s : State} (h : ReleasesSafe s) {i : Station} {p : Port} (hp : s.portMap[p] = some i)
    (hr : (s.port p).driven = .released) : (s.stn i).state = .online := by
  obtain ⟨j, hj, ho⟩ := (h.2 p).2 hr
  rw [hp] at hj; cases hj; exact ho

/-- A station that is not ONLINE changes its record. -/
theorem ReleasesSafe.modStn {s : State} (h : ReleasesSafe s) (i : Station) (f : StationRec → StationRec)
    (ho : (s.stn i).state = .online → (f (s.stn i)).state = .online) : ReleasesSafe (s.modStn i f) := by
  refine ⟨h.1, fun p => ⟨(h.2 p).1, fun hr => ?_⟩⟩
  obtain ⟨j, hj, hs⟩ := (h.2 p).2 hr
  refine ⟨j, hj, ?_⟩
  by_cases e : i = j
  · subst e; rw [stn_modStn_self]; exact ho hs
  · rw [stn_modStn_ne _ _ e]; exact hs

theorem releases_kept : Kept ReleasesSafe where
  link _ _ _ h := h.congr rfl rfl (fun _ => rfl)
  stn s i f hf h := h.modStn i f (fun e => by rw [hf]; exact e)
  off s i f ho _ h := h.modStn i f (fun e => absurd e ho)
  eng _ _ _ h := h.congr rfl rfl (fun _ => rfl)
  chan _ _ _ h := h.congr rfl rfl (fun _ => rfl)
  input _ _ _ h := h.congr rfl rfl (fun _ => rfl)
  audit _ _ h := h.congr rfl rfl (fun _ => rfl)
  sched _ _ h := h.congr rfl rfl (fun _ => rfl)
  changeover _ _ h := h.congr rfl rfl (fun _ => rfl)
  params _ _ h := h.congr rfl rfl (fun _ => rfl)
  images _ _ _ _ _ h := h.congr rfl rfl (fun _ => rfl)
  active _ _ h := h.congr rfl rfl (fun _ => rfl)
  post _ _ _ _ h := h.congr rfl rfl (fun _ => rfl)
  sync _ p h := h.sync p
  grantRel s i x b hg h := by
    unfold releaseAnswer at hg
    unfold grantRelease
    split at hg
    · cases hg
    · next p hp =>
      split at hg
      · cases hg
      · next hj =>
        split at hg
        · next ho =>
          simp only
          refine ReleasesSafe.sync (h.modPort p _ ?_ ?_) p
          · simp [InhibitPort.sound, hj, ho.2.1]
          · intro _; exact ⟨i, portOf_some hp, by simpa [State.online] using ho.1⟩
        · cases hg
  returnRel s i x h := by
    unfold returnRelease; repeat' split
    · exact h
    · exact (h.reassert _).sync _
    · exact h
  enter s i st ho h := by
    have h1 : ReleasesSafe (s.modStn i (fun r => { r with state := st })) := by
      refine h.modStn i _ (fun e => ?_)
      rcases ho with ho | ho
      · exact absurd e ho
      · exact ho
    unfold setStState; simp only; split
    · exact h1.sync _
    · exact h1
  leave s i st _ h := by
    unfold dropRelease
    have e1 : (setStState i st s).portOf i = s.portOf i := by
      unfold setStState; simp only; split <;> rfl
    rw [e1]
    cases hp : s.portOf i with
    | none =>
      refine ⟨?_, fun q => ?_⟩
      · unfold setStState; simp only; split <;> exact h.1
      · have hq : ∀ j, s.portMap[q] = some j → i ≠ j := by
          rintro j hj rfl; rw [portOf_of_map h.1 hj] at hp; cases hp
        have e2 : setStState i st s = s.modStn i (fun r => { r with state := st }) := by
          unfold setStState; simp only
          have : (s.modStn i (fun r => { r with state := st })).portOf i = none := hp
          rw [this]
        rw [e2]
        refine ⟨(h.2 q).1, fun hr => ?_⟩
        obtain ⟨j, hj, hs⟩ := (h.2 q).2 hr
        exact ⟨j, hj, by rw [stn_modStn_ne _ _ (hq j hj)]; exact hs⟩
    | some p =>
      simp only
      have e2 : setStState i st s = syncMonitor p (s.modStn i (fun r => { r with state := st })) := by
        unfold setStState; simp only
        have : (s.modStn i (fun r => { r with state := st })).portOf i = some p := hp
        rw [this]
      have ep : ∀ q, p ≠ q → (setStState i st s).port q = s.port q := by
        intro q hq; rw [e2, syncMonitor, port_modPort_ne _ _ hq]; rfl
      have ed : ((setStState i st s).port p).driven = (s.port p).driven ∧
          ((setStState i st s).port p).holder = (s.port p).holder ∧ ((setStState i st s).port p).sound := by
        rw [e2, syncMonitor, port_modPort_self]
        exact ⟨rfl, rfl, sound_monitor (h.2 p).1 (monitorNext_fault _ _).mp⟩
      have eo : ∀ j, i ≠ j → ((setStState i st s).stn j).state = (s.stn j).state := by
        intro j hj; rw [e2]; exact congrArg (fun r : StationRec => r.state) (stn_modStn_ne s (fun r => { r with state := st }) hj)
      have em : (setStState i st s).portMap = s.portMap := by rw [e2]; rfl
      have rest : ∀ q, p ≠ q → (s.port q).driven = .released →
          ∃ j, s.portMap[q] = some j ∧ ((setStState i st s).stn j).state = .online := by
        intro q hq hr
        obtain ⟨j, hj, hs⟩ := (h.2 q).2 hr
        refine ⟨j, hj, ?_⟩
        rw [eo j ?_]; exact hs
        rintro rfl; exact hq (h.1 p q i (portOf_some hp) hj)
      split
      · refine ReleasesSafe.sync ⟨by rw [State.modPort_portMap, em]; exact h.1, fun q => ?_⟩ p
        by_cases e : p = q
        · subst e; rw [port_modPort_self]; exact ⟨sound_reasserted _, by simp [InhibitPort.reasserted]⟩
        · rw [port_modPort_ne _ _ e, ep q e, State.modPort_portMap, em]
          exact ⟨(h.2 q).1, rest q e⟩
      · next hn =>
        refine ⟨em ▸ h.1, fun q => ?_⟩
        by_cases e : p = q
        · subst e
          refine ⟨ed.2.2, fun hr => ?_⟩
          rw [ed.1] at hr
          have := (h.2 p).1
          simp only [InhibitPort.sound, hr] at this
          rw [ed.2.1] at hn; exact absurd this.1 hn
        · rw [ep q e, em]; exact ⟨(h.2 q).1, rest q e⟩
  settled s p h := h.modPort p _
    (by have := (h.2 p).1; unfold InhibitPort.sound at *; split at this <;> simp_all) (fun hd => (h.2 p).2 hd)
  sensed s p l h := h.modPort p _ (by have := (h.2 p).1; exact this) (fun hd => (h.2 p).2 hd)
  cleared s p h := h.modPort p _ (sound_monitor (h.2 p).1 (by simp)) (fun hd => (h.2 p).2 hd)
  reasserted s p h := h.reassert p
  faulted s p h := h.modPort p _ (by simp [InhibitPort.sound, InhibitPort.reasserted])
    (by simp [InhibitPort.reasserted])

end Sys2Proof.Machine
end

