-- ==== Sys2Proof/Laws/PortMap.lean ====
section
/-! SUPPORT. The map a request gives is sound, and applying a sound map leaves every inhibit output asserted; what the
parts of applying it do to every record, link and port. -/

namespace Sys2Proof.Machine

open Sys2Proof

variable {s : State}

theorem stationOf_inj {m n : Nat} {i : Station} (h1 : stationOf m = some i) (h2 : stationOf n = some i) : m = n ∧ m ≠ 0 := by
  unfold stationOf at h1 h2
  split at h1
  · split at h2
    · have hx := congrArg Fin.val ((Option.some.inj h1).trans (Option.some.inj h2).symm)
      simp at hx; omega
    · cases h2
  · cases h1

theorem portMapOf_ok (r : PortMapReq) (h2 : portMapConflict r = false) :
    PortMapOk (portMapOf r) := by
  intro p q i hp hq
  simp only [portMapOf, Fin.getElem_fin, Vector.getElem_ofFn, Fin.eta] at hp hq
  split at hp
  · next hm =>
    rw [if_pos hm] at hq
    obtain ⟨e1, e2⟩ := stationOf_inj hp hq
    simp only [portMapConflict, hm, decide_true, Bool.true_and] at h2
    by_contra hne
    rw [List.any_eq_false] at h2
    have := h2 p (by simp [allPorts])
    simp only [Bool.not_eq_true, List.any_eq_false] at this
    have := this q (by simp [allPorts])
    simp [hne, e1] at this
    omega
  · next hm =>
    rw [if_neg hm] at hq
    split at hp <;> try cases hp
    split at hq <;> try cases hq
    next hv1 hv2 =>
    have key : ∀ p : Port, p ∈ allPorts := by simp [allPorts]
    have cnt : ∀ p q : Port, p < q → r.values[q.1] = 1 →
        ((allPorts.filter (fun x => decide (x ≤ p) && decide (r.values[x.1] = 1))).length <
         (allPorts.filter (fun x => decide (x ≤ q) && decide (r.values[x.1] = 1))).length) := by
      intro p q hpq hvq
      have hs : (allPorts.filter (fun x => decide (x ≤ p) && decide (r.values[x.1] = 1))).Sublist
          (allPorts.filter (fun x => decide (x ≤ q) && decide (r.values[x.1] = 1))) := by
        apply List.monotone_filter_right
        intro x hx
        simp only [Bool.and_eq_true, decide_eq_true_eq] at hx ⊢
        exact ⟨le_trans hx.1 hpq.le, hx.2⟩
      refine lt_of_le_of_ne hs.length_le (fun he => ?_)
      have heq := hs.eq_of_length he
      have : q ∈ allPorts.filter (fun x => decide (x ≤ p) && decide (r.values[x.1] = 1)) := by
        rw [heq]; simp [key, hvq]
      simp at this; exact absurd this.2.1 (not_le.mpr hpq)
    obtain ⟨hn, _⟩ := stationOf_inj hp hq
    rcases lt_trichotomy p q with hlt | he | hlt
    · exact absurd hn (cnt p q hlt hv2).ne
    · exact he
    · exact absurd hn (cnt q p hlt hv1).ne'

theorem disableStation_portMap (i : Station) (s : State) : (disableStation i s).portMap = s.portMap := by
  have := congrArg State.portMap (disableStation_settings i s)
  simpa [State.settings, State.outside] using this

theorem foldl_disable (l : List Station) (h : ReleasesSafe s) :
    ReleasesSafe (l.foldl (fun s i => disableStation i s) s) ∧
    (l.foldl (fun s i => disableStation i s) s).portMap = s.portMap ∧
    (∀ j, (j ∈ l ∨ (s.stn j).state ≠ .online) → ((l.foldl (fun s i => disableStation i s) s).stn j).state ≠ .online) := by
  induction l generalizing s with
  | nil => exact ⟨h, rfl, by simp⟩
  | cons i l ih =>
    obtain ⟨a, b, c⟩ := ih (releases_kept.disableStation i h)
    refine ⟨a, b.trans (disableStation_portMap i s), fun j hj => c j ?_⟩
    rw [disableStation_state]
    by_cases e : i = j
    · right; rw [if_pos e]; decide
    · rw [if_neg e]
      rcases hj with hj | hj
      · left; rcases List.mem_cons.mp hj with rfl | h
        · exact absurd rfl e
        · exact h
      · exact Or.inr hj

theorem foldl_clear (l : List Station) (h : ReleasesSafe s) (ho : ∀ j ∈ l, (s.stn j).state ≠ .online) :
    ReleasesSafe (l.foldl (fun s i => clearRecord i s) s) ∧
    (l.foldl (fun s i => clearRecord i s) s).portMap = s.portMap ∧
    (∀ j, (s.stn j).state ≠ .online → ((l.foldl (fun s i => clearRecord i s) s).stn j).state ≠ .online) := by
  induction l generalizing s with
  | nil => exact ⟨h, rfl, fun _ hj => hj⟩
  | cons i l ih =>
    have keep : ∀ j, (s.stn j).state ≠ .online → ((clearRecord i s).stn j).state ≠ .online := by
      intro j hj; rw [clearRecord_state]; split
      · decide
      · exact hj
    obtain ⟨a, b, c⟩ := ih (releases_kept.clearRecord i (ho i (by simp)) h)
      (fun j hj => keep j (ho j (List.mem_cons_of_mem _ hj)))
    exact ⟨a, b, fun j hj => c j (keep j hj)⟩

theorem enable_all (i : Station) (s : State) (ha : ∀ p, (s.port p).driven = .asserted) (h : ReleasesSafe s) :
    ReleasesSafe (enableStation i s) ∧ ∀ p, ((enableStation i s).port p).driven = .asserted := by
  have e : (enableStation i s).portMap = s.portMap ∧
      ∀ p, ∃ m, (enableStation i s).port p = { s.port p with monitor := m } ∧ (m = .fault → (s.port p).monitor = .fault) := by
    unfold enableStation setStState clearRecord
    simp only
    split
    · next p hp =>
      refine ⟨rfl, fun q => ?_⟩
      simp only [startBringUp, State.modLink_port, syncMonitor]
      by_cases e : p = q
      · subst e; rw [port_modPort_self]
        exact ⟨_, rfl, (monitorNext_fault _ _).mp⟩
      · rw [port_modPort_ne _ _ e]; exact ⟨_, rfl, id⟩
    · exact ⟨rfl, fun q => ⟨_, rfl, id⟩⟩
  have hd : ∀ p, ((enableStation i s).port p).driven = .asserted := by
    intro p; obtain ⟨m, hm, _⟩ := e.2 p; rw [hm]; exact ha p
  refine ⟨⟨e.1 ▸ h.1, fun p => ⟨?_, fun hr => ?_⟩⟩, hd⟩
  · obtain ⟨m, hm, hf⟩ := e.2 p; rw [hm]; exact sound_monitor (h.2 p).1 hf
  · rw [hd p] at hr; cases hr

theorem foldl_enable (l : List Station) (ha : ∀ p, (s.port p).driven = .asserted) (h : ReleasesSafe s) :
    ReleasesSafe (l.foldl (fun s i => enableStation i s) s) := by
  induction l generalizing s with
  | nil => exact h
  | cons i l ih => exact ih (enable_all i s ha h).2 (enable_all i s ha h).1

/-- Clearing the records of some stations clears those and leaves the others. -/
theorem foldl_clear_stn (l : List Station) :
    (l.foldl (fun s i => clearRecord i s) s).activeFormat = s.activeFormat
    ∧ ∀ j, (l.foldl (fun s i => clearRecord i s) s).stn j = if j ∈ l then .cleared s.activeFormat else s.stn j := by
  induction l generalizing s with
  | nil => simp
  | cons i l ih =>
    obtain ⟨a, b⟩ := ih (s := clearRecord i s)
    refine ⟨a.trans rfl, fun j => (b j).trans ?_⟩
    have hc : (clearRecord i s).activeFormat = s.activeFormat := rfl
    rw [hc]
    by_cases e : j ∈ l
    · simp [e]
    · by_cases h : i = j
      · subst h; simp [e, clearRecord]
      · simp [e, Ne.symm h, clearRecord, stn_modStn_ne _ _ h]

/-- Setting up a station leaves every port whose monitors are IDLE as it is: a station in DOWN is not compared. -/
theorem enableStation_port (i : Station) (h : ∀ p, (s.port p).monitor = .idle) (p : Port) :
    (enableStation i s).port p = s.port p := by
  unfold enableStation setStState
  simp only
  split
  · next q hq =>
    simp only [startBringUp, State.modLink_port, syncMonitor, clearRecord]
    by_cases e : q = p
    · subst e
      have hm : s.portMap[q] = some i := portOf_some hq
      rw [port_modPort_self]
      have := h q
      simp only [State.modStn_port, State.comparing, State.modStn_portMap]
      rw [hm]
      simp [State.up, monitorNext]
      generalize s.port q = x at *
      cases x; simp_all
    · rw [port_modPort_ne _ _ e]; rfl
  · rfl

/-- The station set up has a cleared record in DOWN; the other records stay. -/
theorem enableStation_stn (i j : Station) : (enableStation i s).stn j
    = if i = j then { StationRec.cleared s.activeFormat with state := .down } else s.stn j := by
  have h : (enableStation i s).stn j
      = (((clearRecord i s).modStn i fun r => { r with state := .down })).stn j := by
    unfold enableStation setStState
    simp only
    split <;> rfl
  rw [h]
  by_cases e : i = j
  · subst e; simp [clearRecord]
  · simp [e, clearRecord, stn_modStn_ne _ _ e]

/-- Bring-up holds the link of the station set up; the other links stay. -/
theorem enableStation_link (i j : Station) : (enableStation i s).link j
    = if i = j then
        { s.link i with holder := some .bringUp, waiters := [], identTimer := some Config.identWait, training := none,
                        pollTimer := none }
      else s.link j := by
  have h : (setStState i .down (clearRecord i s)).links = s.links := by
    unfold setStState; simp only; split <;> rfl
  have h' : ∀ j, (setStState i .down (clearRecord i s)).link j = s.link j := by
    intro j; simp only [State.link, h]
  unfold enableStation startBringUp
  by_cases e : i = j
  · subst e; simp [h']
  · simp [e, link_modLink_ne _ _ e, h']

theorem enableStation_active (i : Station) : (enableStation i s).activeFormat = s.activeFormat := by
  unfold enableStation setStState; simp only; split <;> rfl

/-- Setting up some stations gives those a fresh record and a bring-up, and leaves the map, the ports and the other
records. -/
theorem foldl_enable_all (l : List Station) (h : ∀ p, (s.port p).monitor = .idle) :
    let t := l.foldl (fun s i => enableStation i s) s
    t.portMap = s.portMap ∧ t.activeFormat = s.activeFormat ∧ (∀ p, t.port p = s.port p)
    ∧ ∀ j, (j ∉ l → t.stn j = s.stn j) ∧ (j ∈ l → t.stn j = { StationRec.cleared s.activeFormat with state := .down }
      ∧ (t.link j).holder = some .bringUp ∧ (t.link j).identTimer = some Config.identWait) := by
  induction l using List.reverseRecOn with
  | nil => simp
  | append_singleton l i ih =>
    simp only [List.foldl_append, List.foldl_cons, List.foldl_nil] at ih ⊢
    revert ih
    generalize l.foldl (fun s i => enableStation i s) s = u
    rintro ⟨h1, h2, h3, h4⟩
    have hp : (enableStation i u).portMap = u.portMap := by
      have := congrArg State.portMap (enableStation_settings i u)
      simpa [State.settings, State.outside] using this
    refine ⟨hp.trans h1, (enableStation_active i).trans h2, fun p => ?_, fun j => ?_⟩
    · rw [enableStation_port i (fun p => by rw [h3, h]), h3]
    · rw [enableStation_stn, enableStation_link, h2]
      by_cases e : i = j
      · subst e; simp
      · simp only [e, if_false, List.mem_append, List.mem_singleton, Ne.symm e, or_false]
        exact h4 j

/-- Once every station of the old map is DISABLED and its record cleared, every output is asserted. -/
theorem outputs_asserted (h : ReleasesSafe s) :
    let old := allStations.filter s.mapped
    let t := old.foldl (fun s i => clearRecord i s) (old.foldl (fun s i => disableStation i s) s)
    ReleasesSafe t ∧ ∀ p, (t.port p).driven = .asserted := by
  intro old t
  obtain ⟨a, b, c⟩ := foldl_disable (s := s) old h
  obtain ⟨a', b', c'⟩ := foldl_clear old a (fun j hj => c j (Or.inl hj))
  refine ⟨a', fun p => ?_⟩
  cases hd : (t.port p).driven with
  | asserted => rfl
  | released =>
    obtain ⟨i, hi, ho⟩ := (a'.2 p).2 hd
    refine absurd ho (c' i (c i (Or.inl ?_)))
    rw [b', b] at hi
    simp [old, allStations, State.mapped, portOf_of_map h.1 hi]

theorem releases_applyMap (m : Vector (Option Station) 8) (hm : PortMapOk m) (h : ReleasesSafe s) :
    ReleasesSafe (applyMap m s) := by
  unfold applyMap
  obtain ⟨a, hrel⟩ := outputs_asserted h
  revert a hrel
  simp only
  generalize (allStations.filter s.mapped).foldl (fun s i => clearRecord i s)
    ((allStations.filter s.mapped).foldl (fun s i => disableStation i s) s) = s1
  intro a hrel
  have hport : ∀ p, State.port { clearMonitors s1 with portMap := m } p = { s1.port p with monitor := .idle } := by
    intro p; simp [State.port, clearMonitors]
  refine foldl_enable _ ?_ ?_
  · intro p; rw [hport]; exact hrel p
  · refine ⟨hm, fun p => ?_⟩
    rw [hport]
    refine ⟨sound_monitor (a.2 p).1 (by simp), fun hd => ?_⟩
    rw [hrel p] at hd; cases hd

end Sys2Proof.Machine
end

