-- ==== Sys2Proof/Laws/Tables.lean ====
section
/-! SUPPORT. The tables as lists: what placing an item does, and that the order of the tables rests on what
`State.settings` keeps. -/

namespace Sys2Proof.Machine

open Sys2Proof

variable {α : Type}

theorem tableGet_tableSet_self (t : List (Nat × α)) (k : Nat) (x : α) : tableGet (tableSet t k x) k = some x := by
  induction t with
  | nil => simp [tableSet, tableGet]
  | cons e t ih =>
    obtain ⟨j, y⟩ := e
    simp only [tableSet]
    split
    · simp [tableGet]
    · split
      · simp [tableGet]
      · simp [tableGet, *]

theorem tableGet_tableSet_ne (t : List (Nat × α)) (k l : Nat) (x : α) (h : k ≠ l) :
    tableGet (tableSet t k x) l = tableGet t l := by
  induction t with
  | nil => simp [tableSet, tableGet, h]
  | cons e t ih =>
    obtain ⟨j, y⟩ := e
    simp only [tableSet]
    split
    · next e => subst e; simp [tableGet, h]
    · split
      · simp [tableGet, h]
      · simp [tableGet, ih]

theorem mem_tableSet (t : List (Nat × α)) (k : Nat) (x : α) (e : Nat × α) (h : e ∈ tableSet t k x) :
    e = (k, x) ∨ e ∈ t := by
  induction t with
  | nil => simp only [tableSet, List.mem_singleton] at h; exact Or.inl h
  | cons f t ih =>
    obtain ⟨j, y⟩ := f
    simp only [tableSet] at h
    split at h
    · rcases List.mem_cons.mp h with h | h
      · exact Or.inl h
      · exact Or.inr (by simp [h])
    · split at h
      · rcases List.mem_cons.mp h with h | h
        · exact Or.inl h
        · exact Or.inr h
      · rcases List.mem_cons.mp h with h | h
        · exact Or.inr (by simp [h])
        · rcases ih h with h | h
          · exact Or.inl h
          · exact Or.inr (by simp [h])

theorem sharesWord_comm (a b : Param) : a.sharesWord b = b.sharesWord a := by
  rw [Bool.eq_iff_iff]; simp only [Param.sharesWord, Bool.and_eq_true, decide_eq_true_eq]
  constructor <;> rintro ⟨⟨⟨h1, h2⟩, h3⟩, h4⟩ <;> exact ⟨⟨⟨h1.symm, h2.symm⟩, h4⟩, h3⟩

/-- Placing a parameter at a free index keeps the ascending order and the disjointness of the words. -/
theorem paramsOk_tableSet (ps : List (Nat × Param)) (k : Nat) (p : Param) (hk : k < Config.parameterCapacity)
    (hg : tableGet ps k = none) (hs : ∀ e ∈ ps, e.2.sharesWord p = false) (h : ParamsOk ps) :
    ParamsOk (tableSet ps k p) := by
  refine ⟨?_, fun e he => ?_⟩
  · have h1 := h.1
    clear h
    induction ps with
    | nil => simp [tableSet]
    | cons f t ih =>
      obtain ⟨j, y⟩ := f
      have hj : j ≠ k := by intro e; subst e; simp [tableGet] at hg
      have hg' : tableGet t k = none := by simpa [tableGet, hj] using hg
      obtain ⟨h2, h3⟩ := List.pairwise_cons.mp h1
      simp only [tableSet, if_neg hj]
      split
      · next hlt =>
        refine List.pairwise_cons.mpr ⟨fun a ha => ⟨?_, ?_⟩, h1⟩
        · rcases List.mem_cons.mp ha with rfl | ha
          · exact hlt
          · exact lt_trans hlt (h2 a ha).1
        · show p.sharesWord a.2 = false
          rw [sharesWord_comm]; exact hs a ha
      · next hge =>
        refine List.pairwise_cons.mpr ⟨fun a ha => ?_, ih hg' (fun e he => hs e (by simp [he])) h3⟩
        rcases mem_tableSet t k p a ha with rfl | ha
        · exact ⟨by show j < k; omega, hs (j, y) (by simp)⟩
        · exact h2 a ha
  · rcases mem_tableSet ps k p e he with rfl | he
    · exact hk
    · exact h.2 e he

/-! ### Order and `State.settings` -/

theorem sharesWord_core (a b : Param) : a.core.sharesWord b.core = a.sharesWord b := rfl

theorem stacked_core (m : Nat) (ims : List Image) : Stacked m (ims.map Image.core) ↔ Stacked m ims := by
  induction ims generalizing m with
  | nil => exact Iff.rfl
  | cons im ims ih => exact and_congr Iff.rfl (ih _)

theorem reservedWords_core (ims : List Image) : reservedWords (ims.map Image.core) = reservedWords ims := by
  induction ims with
  | nil => rfl
  | cons im ims ih => simp only [List.map_cons, reservedWords, ih, Image.core]

theorem paramsOk_core (ps : List (Nat × Param)) : ParamsOk (ps.map (fun e => (e.1, e.2.core))) ↔ ParamsOk ps := by
  simp only [ParamsOk, List.pairwise_map, sharesWord_core, List.forall_mem_map]

theorem imagesOk_core (ims : List Image) : ImagesOk (ims.map Image.core) ↔ ImagesOk ims := by
  simp only [ImagesOk, List.pairwise_map, List.forall_mem_map, stacked_core, reservedWords_core, Image.core]

theorem auditOk_core (es : List AuditEntry) : AuditOk (es.map AuditEntry.core) ↔ AuditOk es := by
  simp only [AuditOk, List.pairwise_map, List.length_map, AuditEntry.core]

/-- The order of the settings and tables is kept by whatever leaves `State.settings` as it was. -/
theorem SettingsOk.congr {s t : State} (h : SettingsOk s) (e : t.settings = s.settings) : SettingsOk t := by
  have e1 : t.locked = s.locked := by
    have := congrArg State.locked e
    simpa [State.settings, State.outside] using this
  have e2 : t.stage = s.stage := by
    have := congrArg State.stage e
    simpa [State.settings, State.outside] using this
  have e3 : t.guardTime = s.guardTime := by
    have := congrArg State.guardTime e
    simpa [State.settings, State.outside] using this
  have e4 : t.timing = s.timing := by
    have := congrArg State.timing e
    simpa [State.settings, State.outside] using this
  have e5 : t.portMap = s.portMap := by
    have := congrArg State.portMap e
    simpa [State.settings, State.outside] using this
  have e6 : t.windows = s.windows := by
    have := congrArg State.windows e
    simpa [State.settings, State.outside] using this
  have e7 : t.params.map (fun e => (e.1, e.2.core)) = s.params.map (fun e => (e.1, e.2.core)) := by
    have := congrArg State.params e
    simpa only [State.settings, State.outside] using this
  have e8 : t.images.map Image.core = s.images.map Image.core := by
    have := congrArg State.images e
    simpa only [State.settings, State.outside] using this
  have e9 : t.audit.map AuditEntry.core = s.audit.map AuditEntry.core := by
    have := congrArg State.audit e
    simpa only [State.settings, State.outside] using this
  have e10 : t.sup.answering = s.sup.answering := by
    have := congrArg (fun x => x.sup.answering) e
    simpa [State.settings, State.outside] using this
  have e11 : t.sup.restarting = s.sup.restarting := by
    have := congrArg (fun x => x.sup.restarting) e
    simpa [State.settings, State.outside] using this
  exact
    { locked := by rw [e1, e2]; exact h.locked
      restart := by unfold RestartOk; rw [e1, e10, e11]; exact h.restart
      time := by rw [e3]; exact h.time
      timing := by rw [e4]; exact h.timing
      portMap := by rw [e5]; exact h.portMap
      windows := by rw [e6]; exact h.windows
      params := by rw [← paramsOk_core, e7, paramsOk_core]; exact h.params
      images := by rw [← imagesOk_core, e8, imagesOk_core]; exact h.images
      audit := by rw [← auditOk_core, e9, auditOk_core]; exact h.audit }

end Sys2Proof.Machine
end

