-- ==== Sys2Proof/Laws/Whole.lean ====
section
/-! SUPPORT. A property that the elementary updates keep, that start-up establishes, and that rests on the port map, the
ports, the stations and the events alone, is kept by every command. `Whole P` adds to `Kept P` what start-up, time, the
port map, DISARM and TAKE EVENTS do. -/

namespace Sys2Proof.Machine

open Sys2Proof

/-- A property that every elementary update keeps, with start-up, time and the updates that touch many records at once. -/
structure Whole (P : State → Prop) : Prop extends Kept P where
  rest : ∀ s t : State, t.portMap = s.portMap → t.ports = s.ports → t.stations = s.stations → t.events = s.events →
    P s → P t
  start : ∀ c s, P (startUp c s)
  stop : ∀ p s, P (stopped p s)
  pass : ∀ n s, P s → P (passMs n s)
  map : ∀ r s, portMapInRange r = true → portMapConflict r = false → P s → P (applyMap (portMapOf r) s)
  sums : ∀ s, P s → P { s with stations := s.stations.map (fun r => { r with sumUnreliable := false }) }
  taken : ∀ s, P s → P { s with events := s.events.drop 8 }

variable {P : State → Prop} (k : Whole P) {s : State}

include k

theorem Whole.other {t : State} (h : P s) (h1 : t.portMap = s.portMap) (h2 : t.ports = s.ports)
    (h3 : t.stations = s.stations) (h4 : t.events = s.events) : P t := k.rest s t h1 h2 h3 h4 h

omit k in
theorem Whole.checked (rows : List CheckRow) (a : Taken) (h : P s) (ha : P a.2) : P (Machine.checked rows s a).2 := by
  unfold Machine.checked; split
  · exact h
  · exact ha

omit k in
theorem Whole.controllerChecked (r : ChState → Option Reason) (a : Taken) (h : P s) (ha : P a.2) : P (Machine.controllerChecked r s a).2 := by
  unfold Machine.controllerChecked; repeat' split
  · exact h
  · exact h
  · exact ha

theorem Whole.respond (q : SupRequest) (h : P s) : P (respond q s).2 := by
  have triv : ∀ t : State, t.portMap = s.portMap → t.ports = s.ports → t.stations = s.stations → t.events = s.events → P t :=
    fun t a b c d => k.other h a b c d
  cases q with
  | setPortMap r =>
    simp only [Machine.respond, takeSetPortMap, Machine.checked]
    split
    · exact h
    · next hc =>
      simp only [configRows, List.cons_append, List.nil_append, firstRefusal] at hc
      repeat' split at hc
      all_goals first | (cases hc; done) | skip
      exact k.map r s (by simp_all) (by simp_all) h
  | setStation r =>
    simp only [Machine.respond, takeSetStation]; split
    · exact Whole.checked _ _ h h
    · exact Whole.checked _ _ h (triv _ rfl rfl rfl rfl)
  | setInput r =>
    simp only [Machine.respond, takeSetInput]; split
    · refine Whole.checked _ _ h ?_
      simp only [setInputTo]; split
      · exact k.acceptLevel _ (k.input _ _ _ h)
      · exact k.input _ _ _ h
    · exact Whole.checked _ _ h h
  | setTiming r => exact Whole.checked _ _ h (triv _ rfl rfl rfl rfl)
  | loadWindow r =>
    simp only [Machine.respond, takeLoadWindow]; split
    · exact Whole.checked _ _ h h
    · exact Whole.checked _ _ h (triv _ rfl rfl rfl rfl)
  | loadParameter r =>
    simp only [Machine.respond, takeLoadParameter]; split
    · exact Whole.checked _ _ h h
    · exact Whole.checked _ _ h (triv _ rfl rfl rfl rfl)
  | loadImage r => exact Whole.checked _ _ h (triv _ rfl rfl rfl rfl)
  | loadImageWords r =>
    simp only [Machine.respond, takeLoadImageWords]; split
    · exact Whole.checked _ _ h h
    · exact Whole.checked _ _ h (triv _ rfl rfl rfl rfl)
  | addAuditEntry r =>
    simp only [Machine.respond, takeAddAuditEntry]; split
    · exact Whole.checked _ _ h h
    · exact Whole.checked _ _ h (triv _ rfl rfl rfl rfl)
  | loadRecipe r =>
    simp only [Machine.respond, takeLoadRecipe]; split
    · exact Whole.checked _ _ h h
    · exact Whole.checked _ _ h (triv _ rfl rfl rfl rfl)
  | loadRecipeBlock r =>
    simp only [Machine.respond, takeLoadRecipeBlock]; repeat' split
    · exact Whole.checked _ _ h h
    · exact Whole.checked _ _ h h
    · exact Whole.checked _ _ h (triv _ rfl rfl rfl rfl)
  | loadRecipeValue r =>
    simp only [Machine.respond, takeLoadRecipeValue]; split
    · exact Whole.checked _ _ h (triv _ rfl rfl rfl rfl)
    · exact Whole.checked _ _ h h
  | setActiveFormat f =>
    refine Whole.checked _ _ h ?_
    split
    · exact h
    · exact k.setFormats _ _ (triv _ rfl rfl rfl rfl)
  | clearTables => exact Whole.checked _ _ h (triv _ rfl rfl rfl rfl)
  | arm =>
    refine Whole.checked _ _ h ?_
    split
    · exact h
    · exact k.sched _ _ (k.setFormats _ _ (triv _ rfl rfl rfl rfl))
  | disarm =>
    refine Whole.checked _ _ h ?_
    have : P (abandonCheck s) := by
      unfold abandonCheck; split
      · exact k.leaveLink _ _ h
      · exact h
    simp only [disarmEffects]
    revert this; generalize abandonCheck s = s1; intro h1
    exact k.other (k.sums _ h1) rfl rfl rfl rfl
  | lock => exact Whole.checked _ _ h (triv _ rfl rfl rfl rfl)
  | restart => exact Whole.checked _ _ h (triv _ rfl rfl rfl rfl)
  | status => exact h
  | readStation n => simp only [Machine.respond, takeReadStation]; split <;> exact h
  | readParameter n => simp only [Machine.respond, takeReadParameter]; repeat' split
                       all_goals exact h
  | readAuditEntry n => simp only [Machine.respond, takeReadAuditEntry]; repeat' split
                        all_goals exact h
  | takeEvents =>
    exact k.other (k.taken _ h) rfl rfl rfl rfl
  | ackDrift n =>
    simp only [Machine.respond, takeAckDrift]; repeat' split
    · exact h
    · exact h
    · exact k.modEntry _ _ h
    · exact h
  | auditNow n =>
    simp only [Machine.respond, takeAuditNow]; split
    · exact h
    · exact Whole.checked _ _ h (k.requestSweep _ h)
  | releaseStation n =>
    simp only [Machine.respond, takeReleaseStation]; split
    · exact h
    · exact Whole.checked _ _ h (k.releaseStation _ h)
  | directRead r =>
    simp only [Machine.respond, takeDirectRead]; repeat' split
    · exact h
    · exact Whole.checked _ _ h h
    · exact Whole.checked _ _ h (k.place _ _ (k.chan _ _ _ h))
  | capture r =>
    simp only [Machine.respond, takeCapture]; repeat' split
    · exact Whole.checked _ _ h h
    · exact Whole.checked _ _ h h
    · exact Whole.checked _ _ h h
    · exact Whole.checked _ _ h (k.place _ _ (k.chan _ _ _ (triv _ rfl rfl rfl rfl)))
  | takeAccessResult n =>
    simp only [Machine.respond, takeAccessResult]; repeat' split
    · exact h
    · exact k.chan _ _ _ h
    · exact h
  | openChangeover f =>
    simp only [Machine.respond, takeOpen]; split
    · refine Whole.controllerChecked _ _ h ?_
      simp only [openChecked]; repeat' split
      all_goals first | exact h | exact k.auditHold _ (k.changeover _ _ h)
    · exact h
  | applyChangeover =>
    refine Whole.controllerChecked _ _ h ?_
    split
    · exact h
    · simp only [launch]; split
      · exact k.succeed (k.modCh _ h)
      · exact k.beginWork _ (k.modCh _ h)
  | cancelChangeover => exact Whole.controllerChecked _ _ h (k.changeover _ _ (k.auditRelease _ h))
  | revertChangeover =>
    refine Whole.controllerChecked _ _ h ?_
    repeat' split
    · exact h
    · exact h
    · simp only [revertEffects, launch]; split
      · exact k.succeed (k.modCh _ (k.modCh _ h))
      · exact k.beginWork _ (k.modCh _ (k.modCh _ h))
  | closeChangeover => exact Whole.controllerChecked _ _ h (k.changeover _ _ (k.auditRelease _ h))
  | restoreBlock n =>
    simp only [Machine.respond, takeRestore]; split
    · refine Whole.controllerChecked _ _ h ?_
      simp only [restoreChecked]; split
      · exact h
      · exact Whole.checked _ _ h (k.beginWork _ (k.auditHold _ (k.changeover _ _ h)))
    · exact h
  | badRecord => exact h

theorem Whole.takeRequest (tag : Byte) (q : SupRequest) (h : P s) : P (takeRequest tag q s) := by
  exact k.other (k.respond q h) rfl rfl rfl rfl

theorem Whole.supArrive (tag : Byte) (q : SupRequest) (h : P s) : P (supArrive tag q s) := by
  refine Kept.whenRunning (fun h => ?_) h
  split
  · exact k.takeRequest _ _ h
  · exact k.other h rfl rfl rfl rfl
  · exact k.other h rfl rfl rfl rfl

theorem Whole.replySent (h : P s) : P (replySent s) := by
  refine Kept.whenRunning (fun h => ?_) h
  split
  · exact h
  · split
    · exact k.start _ _
    · split
      · exact k.other h rfl rfl rfl rfl
      · exact k.takeRequest _ _ (k.other h rfl rfl rfl rfl)

theorem Whole.stationBytes (i : Station) (f : Frame) (h : P s) : P (Machine.stationBytes i f s) := by
  refine Kept.whenRunning (fun h => ?_) h
  split
  · exact k.stationFrame _ _ _ h
  · exact h

theorem Whole.setRx (l : LinkId) (b : List Byte) (h : P s) : P (setRx l b s) := by
  unfold Machine.setRx; split
  · exact k.link _ _ _ h
  · exact k.eng _ _ _ h
  · exact k.other h rfl rfl rfl rfl

theorem Whole.feed (l : LinkId) (bs : List Byte) (h : P s) : P (feed l bs s) := by
  induction bs generalizing s with
  | nil => exact h
  | cons b bs ih =>
    refine ih ?_
    refine Kept.whenRunning (fun h => ?_) h
    split
    · simp only [takeWhole]
      have := k.setRx l (receiverStep (s.rxOf l) b).1 h
      repeat' split
      · exact this
      · unfold takeFrame; split
        · exact k.stationBytes _ _ this
        · exact k.toolFrame _ _ _ this
        · exact k.supArrive _ _ this
      · exact this
    · exact h

theorem Whole.gap (l : LinkId) (bs : List Byte) (h : P s) : P (gap l bs s) := by
  refine Kept.whenRunning (fun h => ?_) h
  exact k.feed _ _ (k.setRx _ _ h)

theorem Whole.exec (c : Instr) (h : P s) : ∃ t, exec c s = .next t ∧ P t := by
  cases c
  case powerOn m =>
    refine ⟨_, rfl, ?_⟩; unfold powerOn; split
    · exact k.stop _ _
    · exact k.start _ _
  case resetTerminal =>
    refine ⟨_, rfl, ?_⟩; unfold resetHeldLong; simp only; split
    · exact k.stop _ _
    · exact k.other h rfl rfl rfl rfl
  case resetTerminalRelease m =>
    refine ⟨_, rfl, ?_⟩; unfold resetFalls; simp only; split
    · exact k.start _ _
    · exact k.other h rfl rfl rfl rfl
  case guardTimeTick =>
    refine ⟨_, rfl, ?_⟩
    refine Kept.whenRunning (fun h => ?_) h
    have h1 := k.pass (1000 - s.subSecond) s h
    simp only
    revert h1
    generalize passMs (1000 - s.subSecond) s = s1
    intro h1
    exact k.other h1 rfl rfl rfl rfl
  case budgetWindowClose n =>
    refine ⟨_, rfl, ?_⟩
    refine Kept.whenRunning (fun h => ?_) h
    exact k.other h rfl rfl rfl rfl
  case attentionHoldoffExpiry =>
    refine ⟨_, rfl, ?_⟩
    refine Kept.whenRunning (fun h => ?_) h
    exact k.other h rfl rfl rfl rfl
  case supplyRemoved => exact ⟨_, rfl, k.stop _ _⟩
  case resetTerminalAsserted =>
    refine ⟨_, rfl, ?_⟩
    unfold resetRises; split
    · exact h
    · exact k.other h rfl rfl rfl rfl
  case replyTransmitted => exact ⟨_, rfl, k.replySent h⟩
  case frameCheckFailed => exact ⟨_, rfl, k.feed _ _ h⟩
  case interbyteGap => exact ⟨_, rfl, k.gap _ _ h⟩
  case frameLengthOverrange => exact ⟨_, rfl, k.feed _ _ h⟩
  case toolList => exact ⟨_, rfl, k.toolFrame _ _ _ h⟩
  case toolRead => exact ⟨_, rfl, k.toolFrame _ _ _ h⟩
  case toolWrite => exact ⟨_, rfl, k.toolFrame _ _ _ h⟩
  case badRequest => exact ⟨_, rfl, k.toolFrame _ _ _ h⟩
  case presentAsserted e =>
    refine ⟨_, rfl, ?_⟩
    unfold presentAsserted; simp only; repeat' split
    · exact h
    · exact k.eng _ _ _ h
    · exact k.post _ _ _ rfl (k.eng _ _ _ (k.eng _ _ _ h))
    · exact k.eng _ _ _ (k.eng _ _ _ h)
  case presentDropped e =>
    refine ⟨_, rfl, ?_⟩
    unfold presentDropped; simp only; repeat' split
    · exact k.eng _ _ _ (k.eng _ _ _ h)
    · exact k.eng _ _ _ h
    · exact h
  case detachTimerExpiry e =>
    refine ⟨_, rfl, ?_⟩
    refine Kept.whenRunning (fun h => ?_) h
    simp only; split
    · exact k.post _ _ _ rfl (k.eng _ _ _ h)
    · exact h
  case portSettleExpiry e =>
    refine ⟨_, rfl, ?_⟩
    refine Kept.whenRunning (fun h => ?_) h
    simp only; split
    · exact k.eng _ _ _ h
    · exact h
  case strikeWindowExpiry e =>
    refine ⟨_, rfl, ?_⟩
    refine Kept.whenRunning (fun h => ?_) h
    split
    · exact k.eng _ _ _ h
    · exact h
  case lockoutExpiry e =>
    refine ⟨_, rfl, ?_⟩
    refine Kept.whenRunning (fun h => ?_) h
    split
    · exact k.eng _ _ _ h
    · exact h
  case identTimerExpiry i =>
    refine ⟨_, rfl, ?_⟩
    refine Kept.whenRunning (fun h => ?_) h
    split
    · exact k.sendRequest _ _ _ (k.link _ _ _ h)
    · exact h
  case trainingPauseExpiry i =>
    refine ⟨_, rfl, ?_⟩
    refine Kept.whenRunning (fun h => ?_) h
    split
    · exact k.trainStep _ _ _ h
    · exact h
  case pollIntervalExpiry i =>
    refine ⟨_, rfl, ?_⟩
    refine Kept.whenRunning (fun h => ?_) h
    split
    · exact k.placePresence _ (k.link _ _ _ h)
    · exact h
  case replyTimeout i =>
    refine ⟨_, rfl, ?_⟩
    refine Kept.whenRunning (fun h => ?_) h
    split
    · exact k.endTransaction _ _ _ h
    · exact h
  case malformedReply => exact ⟨_, rfl, k.stationBytes _ _ h⟩
  case strayFrame => exact ⟨_, rfl, k.stationBytes _ _ h⟩
  case releaseSettleExpiry => exact ⟨_, rfl, k.settleExpiry _ h⟩
  case releaseLimitExpiry => exact ⟨_, rfl, k.limitExpiry _ h⟩
  case inhibitSenseChange p l =>
    refine ⟨_, rfl, ?_⟩
    refine Kept.whenRunning (fun h => ?_) h
    exact k.sync _ _ (k.sensed _ _ _ h)
  case inhibitFault p =>
    refine ⟨_, rfl, ?_⟩
    refine Kept.whenRunning (fun h => ?_) h
    split
    · exact k.faultPort _ h
    · exact h
  case inputRawChange => exact ⟨_, rfl, k.rawChange _ _ h⟩
  case inputDebounceExpiry =>
    refine ⟨_, rfl, ?_⟩
    refine Kept.whenRunning (fun h => ?_) h
    split
    · exact h
    · exact k.acceptLevel _ h
  case auditPaceExpiry =>
    refine ⟨_, rfl, ?_⟩
    refine Kept.whenRunning (fun h => ?_) h
    exact k.auditPaceExpiry h
  case restart tag moved =>
    refine ⟨_, rfl, ?_⟩
    exact k.supArrive _ _ (s := moveJumpers moved s) (k.other h rfl rfl rfl rfl)
  all_goals first
    | exact ⟨_, rfl, k.supArrive _ _ h⟩
    | (refine ⟨_, rfl, ?_⟩; refine Kept.whenRunning (fun h => ?_) h; exact k.stationFrame _ _ _ h)

theorem Whole.step (h : P s) : ∃ t, step s = .next t ∧ P t := by
  unfold Machine.step; split
  · exact k.exec _ (k.other h rfl rfl rfl rfl)
  · exact ⟨_, rfl, k.pass _ _ h⟩


end Sys2Proof.Machine
end

