-- ==== Sys2Proof/Machine/Replies.lean ====
section
/-! DEFINITION. The bytes of supervisor replies (R182, R184): the head, the event record, the drift record, and the body
of each reply in the order its rule names the fields. Sizes and codes R182 does not settle are those of log entry 19. -/

namespace Sys2Proof.Machine

open Sys2Proof

/-! ### Codes (R182, R184) -/

/-- Codes of the reasons (R184). -/
def Reason.code : Reason → Nat
  | .stage => 1
  | .locked => 2
  | .full => 3
  | .range => 4
  | .conflict => 5
  | .order => 6
  | .unknown => 7
  | .busy => 8
  | .interlock => 9
  | .badRecord => 10

/-- Codes of the status (R182). -/
def Status.code : Status → Nat
  | .ok => 1
  | .adjusted => 2
  | .refused => 3

/-- Codes of the subject kinds (R182). -/
def SubjectKind.code : SubjectKind → Nat
  | .none => 0
  | .auditEntry => 1
  | .parameter => 2
  | .recipeBlock => 3
  | .activeFormat => 4
  | .station => 5

/-- Codes of the event sources (R184). -/
def Source.code : Source → Nat
  | .station i => 0x01 + i.val
  | .engineering e => 0x11 + e.val
  | .input .key => 0x21
  | .input .lineRun => 0x22
  | .input .cover => 0x23
  | .controller => 0x30
  | .channel c => 0x41 + c.val
  | .guard => 0x50

/-- Codes of the event kinds (R184). -/
def EventKind.code : EventKind → Nat
  | .linkUp => 1
  | .linkDown => 2
  | .quarantined => 3
  | .unexpectedChange => 4
  | .drift => 5
  | .relayTrouble => 6
  | .attached => 7
  | .detached => 8
  | .refusal => 9
  | .lockout => 10
  | .inputChange => 11
  | .operationDone => 12
  | .accessDone => 13
  | .restarted => 14

/-- Codes of the reset causes (R165). -/
def ResetCause.code : ResetCause → Nat
  | .power => 1
  | .terminal => 2
  | .request => 3

/-- Codes of the classes (R40). -/
def Cls.code : Cls → Nat
  | .fixed => 1
  | .format => 2
  | .tunable => 3
  | .free => 4

/-- Codes of the quarantine reasons (R4). -/
def QReason.code : QReason → Nat
  | .identity => 1
  | .inhibit => 2

/-- Codes of the PLC modes (R179). -/
def PlcMode.code : PlcMode → Nat
  | .run => 1
  | .stop => 2
  | .fault => 3

/-- Codes of the controller's states (R139). -/
def ChState.code : ChState → Nat
  | .idle => 1
  | .opened => 2
  | .applying => 3
  | .verifying => 4
  | .failed => 5

/-- Codes of the operations (R139). -/
def ChKind.code : ChKind → Nat
  | .changeover => 1
  | .revert => 2
  | .restore => 3

/-- Codes of the results of operations, in the order of R149, R151, R152, R154. -/
def OpResult.code : OpResult → Nat
  | .committed => 1
  | .failed => 2
  | .reverted => 3
  | .restored => 4

/-- Codes of the audit states (R118). -/
def AuditState.code : AuditState → Nat
  | .unchecked => 1
  | .matched => 2
  | .drift => 3
  | .unreachable => 4
  | .suspended => 5
  | .notApplicable => 6

/-- Codes of the last outcomes (R118). -/
def CheckOutcome.code : CheckOutcome → Nat
  | .matched => 1
  | .differ => 2
  | .unreachable => 3

/-- Codes of the jumper positions (R24). -/
def jumperCode : Jumper → Nat
  | .high => 1
  | .low => 2
  | .highUnmonitored => 3
  | .none => 4

/-- Codes of the driven levels (R25). -/
def Driven.code : Driven → Nat
  | .asserted => 1
  | .released => 2

/-- Codes of a port's release holder. R25 lists none first among its values, so none is 1 (R182). -/
def ReleaseHolder.code : Option ReleaseHolder → Nat
  | none => 1
  | some (.tool _) => 2
  | some .changeover => 3

/-- Codes of the port states (R98). -/
def EngState.code : EngState → Nat
  | .detached => 1
  | .settling => 2
  | .ready => 3
  | .waiting => 4
  | .lockedOut => 5

/-- Codes of the channel states (R160). -/
def ChanState.code : ChanState → Nat
  | .free => 1
  | .waiting => 2
  | .running => 3
  | .done => 4

/-- Codes of the access request kinds (R160). -/
def AccessKind.code : AccessKind → Nat
  | .directRead => 1
  | .capture => 2

/-- A two-valued field whose second value is listed for true (log entry 18). -/
def secondCode (b : Bool) : Byte := if b then 2#8 else 1#8

/-- A code, 0 when absent (R182). -/
def codeOr {α : Type} (f : α → Nat) : Option α → Byte
  | none => 0#8
  | some x => byte1 (f x)

/-! ### Fields -/

/-- A value in four bytes, two's complement (R182). -/
def valueBytes (v : Int) : List Byte := bytes4 (v % 4294967296).toNat

/-- A fingerprint. -/
def printBytes (f : Fingerprint) : List Byte := bytes2 f.1 ++ bytes2 f.2

/-- A word. -/
def word2 (w : Word) : List Byte := bytes2 w.toNat

/-- A serial number. -/
def serialBytes (n : BitVec 32) : List Byte := bytes4 n.toNat

/-- A list of stations behind a count byte. -/
def stationList (is : List Station) : List Byte := byte1 is.length :: is.map (fun i => byte1 (stationNumber i))

/-- A cause and its reject reason, both 0 on success. -/
def causeBytes : Option Cause → List Byte
  | none => [0#8, 0#8]
  | some c => [byte1 c.code, byte1 c.rejectCode]

/-- A station, 0 when absent. -/
def stationByte : Option Station → Byte
  | none => 0#8
  | some i => byte1 (stationNumber i)

/-- What a failure names in an event's detail: a block, or a parameter index, with no presence byte (log entry 19). -/
def failItemBytes : Option FailItem → List Byte
  | none => []
  | some (.block b) => bytes2 b
  | some (.parameter k) => [byte1 k]

/-! ### The event record -/

/-- The fields of an event's detail, in the order of the event table. RELAY_TROUBLE's outcome is sent as its tool reply
code, and the two words of R81 have no place in the eight bytes (log entry 41). The fields that only some failures have
carry no presence byte (log entry 19). -/
def Detail.fields : Detail → List Byte
  | .linkUp rate degraded => [byte1 rate, flagByte degraded]
  | .linkDown left => [byte1 left.code]
  | .quarantined r => [byte1 r.code]
  | .unexpectedChange d => word2 d
  | .drift k => [byte1 k]
  | .relayTrouble (.verifyFailed o _ _) port block => [4#8, byte1 (port.val + 1)] ++ bytes2 block ++ [byte1 o]
  | .relayTrouble (.unconfirmed c n) port block => [5#8, byte1 (port.val + 1)] ++ bytes2 block ++ [byte1 c.code, byte1 n]
  | .attached n => bytes2 n
  | .detached left awaited => [byte1 left.code, flagByte awaited]
  | .refusal p i block => [byte1 p.code, byte1 (stationNumber i)] ++ bytes2 block
  | .lockout n p => bytes2 n ++ [byte1 p.code]
  | .inputChange level => [flagByte level]
  | .operationDone kind result n none => [byte1 kind.code, byte1 result.code, byte1 n]
  | .operationDone .restore result n (some f) =>
    [byte1 ChKind.restore.code, byte1 result.code, byte1 n] ++ causeBytes (some f.cause)
      ++ (match f.seen with
          | some (.offset o) => [byte1 o]
          | _ => [])
  | .operationDone kind result n (some f) =>
    [byte1 kind.code, byte1 result.code, byte1 n] ++ causeBytes (some f.cause) ++ [stationByte f.station]
      ++ failItemBytes f.item
  | .accessDone kind failure => byte1 kind.code :: causeBytes failure
  | .restarted c => [byte1 c.code]

/-- Bytes padded with 00h to a width. -/
def padTo (n : Nat) (bs : List Byte) : List Byte := bs ++ List.replicate (n - bs.length) 0#8

/-- The record of an event, 19 bytes (R182). -/
def Event.bytes (e : Event) : List Byte :=
  [byte1 e.source.code, byte1 e.detail.kind.code] ++ bytes4 e.first ++ bytes4 e.last ++ [byte1 e.count]
    ++ padTo 8 e.detail.fields

/-! ### Reply bodies -/

/-- The fields of a roster entry (R3). -/
def RosterEntry.bytes (e : RosterEntry) : List Byte :=
  nameField 12 e.name ++ optField 2 word2 e.maker ++ optField 2 word2 e.model ++ optField 4 serialBytes e.serial
    ++ optField 1 (fun n => [byte1 n]) e.ceiling ++ bytes2 e.replyTimeout ++ bytes2 e.releaseSettle
    ++ [secondCode e.required, byte1 e.defaultClass.code]

/-- The fields of a station record (R4). The tool slot is reported as empty or occupied (R5), codes 1 and 2 (R182). -/
def StationRec.bytes (r : StationRec) (occupied : Bool) : List Byte :=
  [byte1 r.state.code, codeOr QReason.code r.reason] ++ optField 2 word2 r.maker ++ optField 2 word2 r.model
    ++ optField 2 word2 r.firmware ++ optField 4 serialBytes r.serial ++ optField 1 (fun n => [byte1 n]) r.highest
    ++ [byte1 r.rate, byte1 r.wordsPerFrame] ++ word2 r.expected
    ++ [secondCode r.uncertain, byte1 r.missed, secondCode r.sumUnreliable, codeOr PlcMode.code r.mode,
        byte1 r.format.code, secondCode occupied, r.nextSeq]

/-- What READ STATION shows of the port (R25), 4 bytes. The reply sends them as one optional field, absent for a station
without a port (the spec names no form: DESIGN CHOICE, log entries 19 and 25). -/
def InhibitView.bytes (v : InhibitView) : List Byte :=
  [byte1 (jumperCode v.jumper), byte1 v.driven.code, byte1 (ReleaseHolder.code v.holder), flagByte v.fault]

/-- The fields of a parameter entry (R52), then the band and the budget window (R55). The window is sent once, at the end,
as one optional field of start, count and closing time, absent when it is closed, and a closing time beyond the last guard
time modulo 2³² (the spec names no form: DESIGN CHOICE, log entry 19). -/
def paramBytes (p : Param) (lo hi : Int) (closes : Option Nat) : List Byte :=
  [byte1 (stationNumber p.station)] ++ bytes2 p.block ++ [byte1 p.offset, secondCode p.wide, secondCode p.signed]
    ++ valueBytes p.hmin ++ valueBytes p.hmax ++ valueBytes p.defaultBase ++ valueBytes p.base ++ valueBytes p.current
    ++ bytes4 p.low ++ bytes4 p.high ++ optField 4 bytes4 p.step ++ bytes2 p.grain ++ [secondCode p.clamp]
    ++ optField 3 (fun b => byte1 b.1 :: bytes2 b.2) p.budget ++ valueBytes lo ++ valueBytes hi
    ++ optField 9 (fun w => bytes4 w.1.1 ++ [byte1 w.1.2] ++ bytes4 w.2)
        (match p.window, closes with
         | some w, some t => some (w, t)
         | _, _ => none)

/-- The drift record, 13 bytes (R182). -/
def DriftRecord.bytes (d : DriftRecord) : List Byte :=
  [byte1 d.offset] ++ word2 d.expected ++ word2 d.actual ++ printBytes d.seen ++ bytes4 d.time

/-- The fields of an audit entry (R117, R118, R133), the drift record last (R182). -/
def auditEntryBytes (e : AuditEntry) (inProgress : Bool) : List Byte :=
  [byte1 (stationNumber e.station)] ++ bytes2 e.block ++ bytes2 e.length ++ [secondCode e.readMode]
    ++ optField 1 (fun n => [byte1 n]) e.image ++ [codeOr Cls.code e.cls] ++ optField 1 (fun n => [byte1 n]) e.resolved
    ++ optField 4 printBytes e.expected ++ [byte1 e.state.code] ++ optField 4 bytes4 e.lastCheck
    ++ [codeOr CheckOutcome.code e.lastOutcome, flagByte inProgress] ++ optField 13 DriftRecord.bytes e.drift

/-- The block of a step, if it writes one. -/
def Step.block? : Step → Option Nat
  | .block _ b _ _ => some b
  | .values _ _ => none
  | .restore _ b _ => some b

/-- The work position (R139): the item's station, its block if it has one, and the count of items done, 5 bytes. -/
def positionBytes (x : Step × Nat) : List Byte :=
  [byte1 (stationNumber x.1.station)] ++ optField 2 bytes2 x.1.block? ++ [byte1 x.2]

/-- The block a failure names. -/
def FailItem.block? : FailItem → Option Nat
  | .block b => some b
  | .parameter _ => none

/-- The parameter a failure names. -/
def FailItem.parameter? : FailItem → Option Nat
  | .block _ => none
  | .parameter k => some k

/-- The fingerprint a MISMATCH saw. -/
def Seen.print? : Seen → Option Fingerprint
  | .print f => some f
  | _ => none

/-- The words a MISMATCH saw. -/
def Seen.words? : Seen → Option (List Word)
  | .words ws => some ws
  | _ => none

/-- A failure record (R139) in 21 bytes: cause and reject reason, then as optional fields the station, the block, the
parameter index, the pass, the fingerprint seen and the words read (two words, zeros after one; log entry 19). The
offset of a failed restore is never here: a restore leaves no failure record (R154). -/
def Failure.bytes (f : Failure) : List Byte :=
  causeBytes (some f.cause) ++ optField 1 (fun i => [byte1 (stationNumber i)]) f.station
    ++ optField 2 bytes2 (f.item.bind FailItem.block?) ++ optField 1 (fun k => [byte1 k]) (f.item.bind FailItem.parameter?)
    ++ optField 1 (fun n => [byte1 n]) f.pass ++ optField 4 printBytes (f.seen.bind Seen.print?)
    ++ optField 4 (fun ws => padTo 4 (wordBytes ws)) (f.seen.bind Seen.words?)

/-- The fields of STATUS (R159). Its numbers take one byte each and the words reserved two, and a format is one optional
field of its two numbers (R182 gives no sizes: DESIGN CHOICE, log entry 19). -/
def StatusReport.bytes (r : StatusReport) : List Byte :=
  bytes4 r.guardTime ++ [byte1 r.stage.code, secondCode r.locked, byte1 r.activeFormat, flagByte r.permit,
    flagByte r.attention, flagByte r.key, flagByte r.lineRun, flagByte r.cover]
    ++ (r.stations.map (fun x => [byte1 x.1.code, byte1 x.2.code])).flatten
    ++ [byte1 r.windows, byte1 r.parameters, byte1 r.images] ++ bytes2 r.reserved ++ [byte1 r.entries, byte1 r.drifted]
    ++ stationList r.sweeps
    ++ (r.recipes.map (optField 2 (fun x : Nat × Nat => [byte1 x.1, byte1 x.2]))).flatten
    ++ [byte1 r.chState.code, codeOr ChKind.code r.chKind] ++ optField 1 (fun n => [byte1 n]) r.chTarget
    ++ stationList r.chStations ++ optField 1 (fun n => [byte1 n]) r.chRestore
    ++ optField 5 positionBytes r.chPosition ++ optField 21 Failure.bytes r.chFailure
    ++ (r.ports.map (fun x => [byte1 x.1.code, byte1 x.2.1] ++ bytes2 x.2.2)).flatten
    ++ (r.channels.map (fun x => [byte1 x.1.code, codeOr AccessKind.code x.2])).flatten ++ [byte1 r.events]

/-- The fields of TAKE ACCESS RESULT (R164). The result begins with cause and reject reason, zeros on success; then come
the words of a DIRECT READ or the image id of a CAPTURE. COMPLETE has no code in R182 or R184, and those two zeros before
the image id are all that carries it (DESIGN CHOICE, log entry 19). -/
def accessBytes (w : AccessWork) : List Byte :=
  [byte1 w.kind.code, byte1 (stationNumber w.station)] ++ bytes2 w.block ++ [byte1 w.offset] ++ bytes2 w.count
    ++ (match w.result with
        | some (.failed c) => causeBytes (some c)
        | some (.words ws) => causeBytes none ++ wordBytes ws
        | _ => causeBytes none ++ [codeOr (fun n => n) w.image])

/-- The six values of SET TIMING (R158). -/
def timingBytes (t : Timing) : List Byte :=
  bytes2 t.pollInterval ++ bytes2 t.auditPace ++ bytes2 t.strikeWindow ++ bytes2 t.strikeLimit ++ bytes2 t.lockout
    ++ bytes2 t.holdoff

/-- The body of a reply after its head. READ STATION's inhibit fields and READ PARAMETER's budget window are one optional
field each (log entry 19). -/
def ReplyBody.bytes : ReplyBody → List Byte
  | .none => []
  | .checkTime ms => bytes2 ms
  | .timing t => timingBytes t
  | .status r => r.bytes
  | .station e r occupied unprotected v =>
    e.bytes ++ r.bytes occupied ++ [flagByte unprotected] ++ optField 4 InhibitView.bytes v
  | .parameter p lo hi closes => paramBytes p lo hi closes
  | .auditEntry e inProgress => auditEntryBytes e inProgress
  | .events es => byte1 es.length :: (es.map Event.bytes).flatten
  | .channel c => [byte1 (c.val + 1)]
  | .access w => accessBytes w
  | .stations is => stationList is

/-- The head of a reply (R182). -/
def SupReply.head (r : SupReply) : List Byte :=
  [byte1 r.status.code, codeOr Reason.code r.reason, flagByte r.overrun, byte1 r.subject.kind.code,
   byte1 r.subject.number, byte1 r.subject.position, byte1 r.subject.check]

/-- The frame of a reply (R182). -/
def SupReply.frame (r : SupReply) : Frame := { kind := 0xC0#8, tag := r.tag, body := r.head ++ r.body.bytes }

end Sys2Proof.Machine
end

