-- ==== Sys2Proof/Tests/Slice0.lean ====
section
/-! SUPPORT. Tests: ill-formed terms that WellFormed refuses; figures and sequences of the spec's worked examples, each
about one command on a small state; and, for each statement of Certificates/Slice0/Obligations.lean that has
hypotheses, a concrete state and operands that meet them together, clause by clause. Expected results come from the
spec's own text. -/

namespace Sys2Proof.Tests

open Sys2Proof Sys2Proof.Machine

/-! ### Small states -/

/-- The state a command leads to. -/
def after (c : Instr) (s : State) : State :=
  match exec c s with
  | .next t => t
  | _ => s

/-- Station 1 on port SP0, ONLINE in STOP, its counter certain, in CONFIGURE. -/
def line : State :=
  { State.reset with portMap := State.reset.portMap.set 0 (some 0) }.modStn 0 (fun r =>
    { r with state := .online, uncertain := false, mode := some .stop })

/-- The same in GUARDING. -/
def guarding (s : State) : State := { s with stage := .guarding }

/-- KEY accepted at MAINT. -/
def keyed (s : State) : State :=
  { s with inputs := { s.inputs with key := { s.inputs.key with raw := true, accepted := true } } }

/-- A request of `u` in flight to station 1 with sequence number 5. -/
def flying (q : StationRequest) (u : LinkUser) (s : State) : State :=
  s.modLink 0 (fun l =>
    { l with holder := some u, inFlight := some { seq := 5, request := q, owner := some u, timeout := 40 } })

/-- An image of two words. -/
def image0 : Image := { id := 0, length := 2, position := 0, words := [], capture := none, print := none }

/-- The same with its words 17 and 30 (R116: S1 = 47, S2 = 77). -/
def image1 : Image := { image0 with words := [17, 30], print := some (47, 77) }

/-- A parameter of one unsigned word, baseline 50, band 40 to 60. -/
def param0 : Param :=
  { station := 0, block := 3, offset := 0, wide := false, signed := false, hmin := 0, hmax := 100, defaultBase := 50,
    base := 50, current := 50, low := 10, high := 10, step := some 5, grain := 5, clamp := false,
    budget := some (2, 10), window := none }

/-- A FIXED audit entry for `image1`. -/
def entry0 : AuditEntry :=
  { station := 0, block := 7, length := 2, readMode := false, image := some 0, cls := some .fixed, resolved := none,
    expected := some (47, 77), state := .unchecked, lastCheck := none, lastOutcome := none, drift := none }

/-- A recipe with one block and one value. -/
def recipe1 : Recipe :=
  { name := none, blocks := [{ station := 0, block := 7, pass := 1, image := 0 }], values := [(0, 55)] }

/-- Tables with one of each. -/
def tables (s : State) : State :=
  { s with params := [(0, param0)], images := [image1], audit := [entry0], recipes := [(1, recipe1)],
           windows := [{ station := 0, first := 3, last := 3, cls := .tunable }] }

/-- A write of one word from port 1 to station 1. -/
def write0 : ToolOp :=
  { write := true, port := 0, attachment := 1, tag := 9, block := 3, offset := 0, count := 1, words := [55],
    readBack := false, adjusted := false, changes := [], phase := .writing, acked := 0, writeSent := true, got := [],
    expired := false }

/-- A read of two words. -/
def read0 : ToolOp :=
  { write0 with write := false, count := 2, words := [], phase := .reading, writeSent := false }

/-- Port 1 attached, in a state. -/
def port1 (st : EngState) (s : State) : State :=
  s.modEng 0 (fun p => { p with present := true, attachment := 1, state := st,
                                awaited := if st = .waiting then some 0 else none })

/-- An operation in station 1's slot, whose port waits. -/
def slotted (op : ToolOp) (s : State) : State := (port1 .waiting s).modStn 0 (fun r => { r with slot := some op })

/-- The output of SP0 released for the tool operation of station 1. -/
def released (s : State) : State :=
  s.modPort 0 (fun p =>
    { p with driven := .released, holder := some (.tool 0), limitTimer := some 1500, settleTimer := some 20 })

/-- A check of entry 0 in GUARDING, with its SUM or its READ in flight. -/
def inCheck (phase : CheckPhase) (e : AuditEntry) : State :=
  let s := flying (if phase = .summing then .sum 7 2 else .read 7 0 2) .audit (guarding (tables line))
  { s with
    audit := [e]
    sched := { Scheduler.stopped with
      check := some { entry := 0, station := 0, phase := phase, got := [], bySweep := false, discard := false }
      paceTimer := some 1 } }

/-- The same check waiting behind a presence poll. -/
def waitingCheck : State :=
  (inCheck .waiting entry0).modLink 0 (fun l =>
    { l with holder := some .presence, waiters := [.audit],
             inFlight := some { seq := 5, request := .state, owner := some .presence, timeout := 40 } })

theorem line_configuring : line.configuring := ⟨⟨by decide, by decide⟩, by decide⟩

/-! ### WellFormed: each check refuses an ill-formed term -/

/-- A sound SET STATION. -/
def station1 : StationReq :=
  { station := 1, name := List.replicate 12 0, maker := none, model := none, serial := none, ceiling := none,
    replyTimeout := 40, releaseSettle := 20, required := 1, defaultClass := 1 }

/-- The defaults as a request. -/
def timing1 : Timing := defaultTiming

/-- A sound LOAD PARAMETER (the filler's fill volume, chapter 4). -/
def parameter1 : ParameterReq :=
  { index := 0, station := 2, block := 48, offset := 0, width := 1, kind := 1, hmin := 4500, hmax := 5500,
    defaultBase := 5030, current := 5040, low := 20, high := 40, step := some 15, grain := some 5, mode := 2,
    budget := none }

theorem test_wf_accepts : Instr.wf (.setStation 1 station1) = true ∧ Instr.wf (.setTiming 1 timing1) = true
    ∧ Instr.wf (.loadParameter 1 parameter1) = true := by decide
theorem test_wf_port_map : PortMapReq.wf { mode := 256, values := Vector.replicate 8 0 } = false
    ∧ PortMapReq.wf { mode := 1, values := (Vector.replicate 8 0).set 7 256 } = false := by decide
theorem test_wf_station : StationReq.wf { station1 with station := 256 } = false
    ∧ StationReq.wf { station1 with name := [] } = false ∧ StationReq.wf { station1 with ceiling := some 256 } = false
    ∧ StationReq.wf { station1 with replyTimeout := 65536 } = false
    ∧ StationReq.wf { station1 with releaseSettle := 65536 } = false
    ∧ StationReq.wf { station1 with required := 256 } = false
    ∧ StationReq.wf { station1 with defaultClass := 256 } = false := by decide
theorem test_wf_input : InputReq.wf { input := 256, checkTime := 0, mode := 1 } = false
    ∧ InputReq.wf { input := 1, checkTime := 65536, mode := 1 } = false
    ∧ InputReq.wf { input := 1, checkTime := 0, mode := 256 } = false := by decide
theorem test_wf_timing : Timing.wf { timing1 with pollInterval := 65536 } = false
    ∧ Timing.wf { timing1 with auditPace := 65536 } = false ∧ Timing.wf { timing1 with strikeWindow := 65536 } = false
    ∧ Timing.wf { timing1 with strikeLimit := 65536 } = false ∧ Timing.wf { timing1 with lockout := 65536 } = false
    ∧ Timing.wf { timing1 with holdoff := 65536 } = false := by decide
theorem test_wf_window : WindowReq.wf { station := 256, first := 0, last := 0, cls := 1 } = false
    ∧ WindowReq.wf { station := 1, first := 65536, last := 0, cls := 1 } = false
    ∧ WindowReq.wf { station := 1, first := 0, last := 65536, cls := 1 } = false
    ∧ WindowReq.wf { station := 1, first := 0, last := 0, cls := 256 } = false := by decide
theorem test_wf_parameter_place : ParameterReq.wf { parameter1 with index := 256 } = false
    ∧ ParameterReq.wf { parameter1 with station := 256 } = false ∧ ParameterReq.wf { parameter1 with block := 65536 } = false
    ∧ ParameterReq.wf { parameter1 with offset := 256 } = false ∧ ParameterReq.wf { parameter1 with width := 256 } = false
    ∧ ParameterReq.wf { parameter1 with kind := 256 } = false := by decide
theorem test_wf_parameter_limits : ParameterReq.wf { parameter1 with low := 4294967296 } = false
    ∧ ParameterReq.wf { parameter1 with high := 4294967296 } = false
    ∧ ParameterReq.wf { parameter1 with step := some 4294967296 } = false
    ∧ ParameterReq.wf { parameter1 with grain := some 65536 } = false ∧ ParameterReq.wf { parameter1 with mode := 256 } = false
    ∧ ParameterReq.wf { parameter1 with budget := some (256, 1) } = false
    ∧ ParameterReq.wf { parameter1 with budget := some (1, 65536) } = false := by decide
theorem test_wf_image : ImageReq.wf { id := 256, length := 1 } = false ∧ ImageReq.wf { id := 0, length := 65536 } = false
    ∧ ImageWordsReq.wf { id := 256, offset := 0, count := 0, words := [] } = false
    ∧ ImageWordsReq.wf { id := 0, offset := 256, count := 0, words := [] } = false
    ∧ ImageWordsReq.wf { id := 0, offset := 0, count := 2, words := [1] } = false := by decide
theorem test_wf_image_count :
    ImageWordsReq.wf { id := 0, offset := 0, count := 256, words := [] } = false := by decide
theorem test_wf_audit : AuditReq.wf { station := 256, block := 0, length := 1, mode := 1, image := none } = false
    ∧ AuditReq.wf { station := 1, block := 65536, length := 1, mode := 1, image := none } = false
    ∧ AuditReq.wf { station := 1, block := 0, length := 65536, mode := 1, image := none } = false
    ∧ AuditReq.wf { station := 1, block := 0, length := 1, mode := 256, image := none } = false
    ∧ AuditReq.wf { station := 1, block := 0, length := 1, mode := 1, image := some 256 } = false := by decide
theorem test_wf_recipe : RecipeReq.wf { format := 256, name := none } = false
    ∧ RecipeReq.wf { format := 1, name := some [65] } = false
    ∧ RecipeBlockReq.wf { format := 256, station := 1, block := 0, pass := 1, image := 0 } = false
    ∧ RecipeBlockReq.wf { format := 1, station := 256, block := 0, pass := 1, image := 0 } = false
    ∧ RecipeBlockReq.wf { format := 1, station := 1, block := 65536, pass := 1, image := 0 } = false
    ∧ RecipeBlockReq.wf { format := 1, station := 1, block := 0, pass := 256, image := 0 } = false
    ∧ RecipeBlockReq.wf { format := 1, station := 1, block := 0, pass := 1, image := 256 } = false
    ∧ RecipeValueReq.wf { format := 256, parameter := 0, value := 0 } = false
    ∧ RecipeValueReq.wf { format := 1, parameter := 256, value := 0 } = false := by decide
theorem test_wf_access : DirectReadReq.wf { station := 256, block := 0, offset := 0, count := 1 } = false
    ∧ DirectReadReq.wf { station := 1, block := 65536, offset := 0, count := 1 } = false
    ∧ DirectReadReq.wf { station := 1, block := 0, offset := 256, count := 1 } = false
    ∧ DirectReadReq.wf { station := 1, block := 0, offset := 0, count := 256 } = false
    ∧ CaptureReq.wf { station := 256, block := 0, image := 0 } = false
    ∧ CaptureReq.wf { station := 1, block := 65536, image := 0 } = false
    ∧ CaptureReq.wf { station := 1, block := 0, image := 256 } = false := by decide
theorem test_wf_numbers : Instr.wf (.setActiveFormat 1 256) = false ∧ Instr.wf (.readStation 1 256) = false
    ∧ Instr.wf (.readParameter 1 256) = false ∧ Instr.wf (.readAuditEntry 1 256) = false
    ∧ Instr.wf (.ackDrift 1 256) = false ∧ Instr.wf (.auditNow 1 256) = false ∧ Instr.wf (.releaseStation 1 256) = false
    ∧ Instr.wf (.takeAccessResult 1 256) = false ∧ Instr.wf (.openChangeover 1 256) = false
    ∧ Instr.wf (.restoreBlock 1 256) = false ∧ Instr.wf (.budgetWindowClose 96) = false
    ∧ Instr.wf (.requestHeld 1 (.restoreBlock 256)) = false
    ∧ Instr.wf (.requestOverrun 1 (.readStation 256)) = false := by decide
theorem test_wf_tool : ToolReadReq.wf { station := 256, block := 0, offset := 0, count := 1 } = false
    ∧ ToolReadReq.wf { station := 1, block := 65536, offset := 0, count := 1 } = false
    ∧ ToolReadReq.wf { station := 1, block := 0, offset := 256, count := 1 } = false
    ∧ ToolReadReq.wf { station := 1, block := 0, offset := 0, count := 256 } = false
    ∧ ToolWriteReq.wf { station := 1, block := 0, offset := 0, count := 2, words := [1] } = false
    ∧ ToolWriteReq.wf { station := 256, block := 0, offset := 0, count := 0, words := [] } = false
    ∧ ToolWriteReq.wf { station := 1, block := 65536, offset := 0, count := 0, words := [] } = false
    ∧ ToolWriteReq.wf { station := 1, block := 0, offset := 256, count := 0, words := [] } = false
    ∧ ToolRequest.wf .bad = false := by decide
theorem test_wf_bodies (body : List Byte) (words : List Word) (hb : body.length = 201) (hw : words.length = 101) :
    Instr.wf (.badRecord 1 1 body) = false ∧ Instr.wf (.badRequest 0 1 1 body) = false
    ∧ Instr.wf (.malformedReply 0 1 1 body) = false ∧ Instr.wf (.strayFrame 0 1 1 body) = false
    ∧ Instr.wf (.echoReply 0 1 [1]) = false ∧ Instr.wf (.dataReply 0 1 words) = false
    ∧ StationReply.wf (.echoReply [1]) = false ∧ StationReply.wf (.data words) = false := by
  simp [Instr.wf, bodyFits, StationReply.wf, hb, hw]

/-! ### The spec's worked figures -/

/-- R1: enable flags 1, 1, 0, 1, 1, 1, 1, 1 leave SP2 unused, and SP7 is station 7. -/
theorem test_port_map_sequential :
    let s := after (.setPortMap 1 { mode := 1, values := #v[1, 1, 0, 1, 1, 1, 1, 1] }) State.reset
    s.portMap[1] = some 1 ∧ s.portMap[2] = none ∧ s.portMap[3] = some 2 ∧ s.portMap[7] = some 6 := by decide

/-- R34: a tie goes to the larger value, and 1000 is brought to 512. -/
theorem test_check_time : nearestCheckTime 5 = 8 ∧ nearestCheckTime 4 = 2 ∧ nearestCheckTime 1000 = 512 := by decide

/-- Chapter 7: the fingerprint of 10, 20, 65535, 3, and with 25 at offset 1. -/
theorem test_fingerprint : fingerprint [10, 20, 65535, 3] = (47, 104) ∧ fingerprint [10, 25, 65535, 3] = (52, 114) := by
  decide

/-- Chapter 7: the capper's block 30 as expected and as found. -/
theorem test_capper_prints : fingerprint [120, 0, 15, 2400, 321, 90, 7, 0] = (2953, 11959)
    ∧ fingerprint [120, 0, 15, 2400, 328, 92, 7, 0] = (2962, 12006) := by decide

/-- R182: listed values count from 1, so the empty and the occupied slot of R4 are 1 and 2, before the sequence number that ends the record. -/
theorem test_slot_codes : ((StationRec.cleared 0).bytes false).drop 27 = [1, 0]
    ∧ ((StationRec.cleared 0).bytes true).drop 27 = [2, 0] := by decide

/-- R182: the release holders in the order of R25, with none first. -/
theorem test_holder_codes : [none, some (.tool 0), some .changeover].map ReleaseHolder.code = [1, 2, 3] := by decide

/-- The event table: outcome, port, block, cause and words acknowledged of an UNCONFIRMED relay, and nothing more. -/
theorem test_relay_trouble_detail :
    (Detail.relayTrouble (.unconfirmed (.reject .busy) 4) 1 30).fields = [5, 2, 0, 30, 1, 4] := by decide

/-- Chapter 11: the READ of the filler's block 48 and its DATA answer. -/
theorem test_read_frame : Frame.bytes { kind := 0x05, tag := 12, body := [0x00, 0x30, 0x00, 0x01] }
    = [0xC3, 0x05, 0x0C, 0x04, 0x00, 0x30, 0x00, 0x01, 0x46, 0x25] := by decide
theorem test_data_frame : frameOf [0xC3, 0x85, 0x0C, 0x02, 0x13, 0xBF, 0x6A, 0xBE]
    = some { kind := 0x85, tag := 12, body := [0x13, 0xBF] }
    ∧ parseReply 0x85 [0x13, 0xBF] = some (.data [5055]) := by decide

/-- Chapter 4: the filler's fill volume. -/
def filler : Param :=
  { station := 1, block := 48, offset := 0, wide := false, signed := false, hmin := 4500, hmax := 5500,
    defaultBase := 5030, base := 5030, current := 5040, low := 20, high := 40, step := some 15, grain := 5,
    clamp := true, budget := none, window := none }

theorem test_filler_clamp : filler.verdict 5040 0 = .unchanged ∧ filler.verdict 5075 0 = .clamped 5055
    ∧ filler.verdict 5043 0 = .held ∧ filler.verdict 5052 0 = .clamped 5050 ∧ filler.verdict 5000 0 = .clamped 5025
    ∧ filler.verdict 5027 0 = .clamped 5030 := by decide
theorem test_filler_strict : { filler with clamp := false }.verdict 5002 0 = .refused .band
    ∧ { filler with clamp := false }.verdict 5060 0 = .refused .step
    ∧ { filler with clamp := false }.verdict 5052 0 = .refused .grain
    ∧ { filler with clamp := false }.verdict 5050 0 = .pass 5050 := by decide

/-- Chapter 4: the capper's torque above and below its baseline. -/
def torque (c : Int) : Param :=
  { filler with station := 2, block := 30, offset := 4, hmin := 0, hmax := 1000, defaultBase := 300, base := 300,
                current := c, low := 50, high := 50, step := some 12, grain := 7 }

theorem test_torque_high : (torque 328).verdict 320 0 = .clamped 321 ∧ (torque 328).verdict 345 0 = .clamped 335
    ∧ (torque 328).verdict 330 0 = .held ∧ (torque 328).verdict 310 0 = .clamped 321 := by decide
theorem test_torque_low : (torque 279).verdict 290 0 = .clamped 286 ∧ (torque 279).verdict 260 0 = .clamped 272
    ∧ (torque 279).verdict 282 0 = .clamped 286 ∧ (torque 279).verdict 279 0 = .unchanged := by decide

/-- Chapter 4: the labeller's two-word signed offset. -/
def registration : Param :=
  { filler with station := 4, block := 70, offset := 10, wide := true, signed := true, hmin := -2000000,
                hmax := 2000000, defaultBase := -150000, base := -150000, current := -135000, low := 100000,
                high := 100000, step := some 40000, grain := 500 }

theorem test_registration : registration.encode (-135000) = [65533, 61608]
    ∧ registration.decode 65535 45536 = -20000 ∧ registration.verdict (-20000) 0 = .clamped (-95000)
    ∧ registration.encode (-95000) = [65534, 36072] ∧ registration.verdict (-135250) 0 = .clamped (-135500) := by decide
theorem test_split_and_unguarded :
    judge [(12, registration)] 4 70 11 [61608] 0 = .refuse .split 11
    ∧ judge [(12, registration)] 4 70 9 [0, 65533] 0 = .refuse .unguarded 9 := by decide

/-- Chapter 4: the chuck-down dwell against its budget of 2 in 10 minutes. -/
def dwell (c : Int) (w : Option (Nat × Nat)) : Param :=
  { filler with station := 2, block := 30, offset := 5, hmin := 40, hmax := 200, defaultBase := 80, base := 80,
                current := c, low := 20, high := 20, step := none, grain := 2, clamp := false, budget := some (2, 10),
                window := w }

theorem test_dwell_budget : (dwell 86 (some (7001, 1))).verdict 88 7200 = .pass 88
    ∧ (dwell 88 (some (7001, 2))).verdict 90 7300 = .refused .budget
    ∧ (dwell 88 (some (7001, 2))).verdict 88 7350 = .unchanged
    ∧ (dwell 88 (some (7001, 2))).verdict 120 7400 = .refused .band
    ∧ (dwell 88 (some (7001, 2))).verdict 90 7601 = .pass 90 := by decide
theorem test_two_parameters :
    judge [(1, torque 328), (2, dwell 88 (some (7001, 2)))] 2 30 4 [320, 90] 7650
      = .forward [321, 90] true [(1, 321), (2, 90)]
    ∧ judge [(1, torque 328), (2, dwell 88 none)] 2 30 4 [330, 88] 7650 = .noChange [328, 88]
    ∧ judge [(1, torque 328), (2, dwell 88 none)] 2 30 4 [320, 120] 7650 = .refuse .band 5 := by decide

/-- Chapter 3: the filler's windows, a conflict, a range, and the classes looked up. -/
theorem test_window_lookup :
    let ask (st a b c : Nat) : Instr := .loadWindow 1 { station := st, first := a, last := b, cls := c }
    let idle (s : State) : State := { s with sup := { s.sup with answering := none } }
    let s := idle (after (ask 2 40 47 2) (idle (after (ask 2 0 39 1) State.reset)))
    s.windows.length = 2 ∧ s.classOf 1 44 = .format ∧ s.classOf 1 52 = .fixed
      ∧ (after (ask 2 45 50 3) s).windows.length = 2
      ∧ (after (ask 2 45 50 3) s).sup.answering.map (fun r => r.reason) = some (some .conflict)
      ∧ (after (ask 3 31 30 3) s).sup.answering.map (fun r => r.reason) = some (some .range) := by decide

/-- Chapter 1: the capper's counter at 414 meets 417, and 65534 meets 1: a difference of 3 either way. -/
theorem test_counter_difference :
    let at' (e : Word) : State :=
      flying .state .presence (guarding (line.modStn 0 (fun r => { r with expected := e })))
    ((after (.stateReply 0 5 2 417) (at' 414)).stn 0).expected = 417
      ∧ (after (.stateReply 0 5 2 417) (at' 414)).events.map (fun x => x.detail)
          = [.restarted .power, .unexpectedChange 3]
      ∧ (after (.stateReply 0 5 2 1) (at' 65534)).events.map (fun x => x.detail)
          = [.restarted .power, .unexpectedChange 3]
      ∧ (after (.stateReply 0 5 2 417) (at' 414)).sched.sweeps.map (fun q => q.station) = [0] := by decide

/-- Chapter 6: the third strike locks the port out and posts LOCKOUT (60 s, FORMAT) after the REFUSAL. -/
theorem test_strike_out :
    let s := (port1 .ready (guarding line)).modEng 0 (fun p => { p with strikes := 2, strikeWindow := some 10000 })
    let s := { s with windows := [{ station := 0, first := 20, last := 29, cls := .format }], events := [] }
    let t := after (.toolWrite 0 7 { station := 1, block := 22, offset := 0, count := 1, words := [1] }) s
    (t.engp 0).state = .lockedOut ∧ (t.engp 0).strikes = 0 ∧ (t.engp 0).lockout = some 60000
      ∧ t.events.map (fun x => x.detail) = [.refusal .format 0 22, .lockout 60 .format]
      ∧ (t.engp 0).tx.map (fun x => x.reply) = [.policy .format 0] := by decide

/-- Chapter 6: at 45 s, 35 s of lockout are left and ATTACHED says so. -/
theorem test_attach_in_lockout :
    let s := { State.reset.modEng 2 (fun p => { p with lockout := some 34950 }) with events := [] }
    (after (.presentAsserted 2) s).events.map (fun x => x.detail) = [.attached 35] := by decide

/-- Chapter 9: two drifts gather into one event with a count of 2, and TAKE EVENTS starts the holdoff. -/
theorem test_events_gather :
    let s := { State.reset with events := [], guardTime := 5200 }
    let s := post (.station 2) (.drift 7) (post (.station 2) (.drift 6) s)
    s.events = [{ source := .station 2, detail := .drift 7, first := 5200, last := 5200, count := 2 }]
      ∧ (after (.takeEvents 1) s).events = [] ∧ (after (.takeEvents 1) s).holdoff = some 100
      ∧ (after (.takeEvents 1) s).attention = false := by decide

/-- Chapter 7: a SUM of (2962, 12006) against (2953, 11959) asks for the confirming READ of 8 words. -/
theorem test_sum_differs :
    let e : AuditEntry := { entry0 with block := 30, length := 8, cls := some .tunable, expected := some (2953, 11959) }
    let c : Check := { entry := 0, station := 0, phase := .summing, got := [], bySweep := false, discard := false }
    let s : State := flying (.sum 30 8) .audit (guarding line)
    let s : State := { s with audit := [e], sched := { Scheduler.stopped with check := some c, paceTimer := some 9 } }
    (((after (.sumReply 0 5 2962 12006) s).link 0).inFlight.map (fun t => t.request)) = some (.read 30 0 8)
      ∧ ((after (.sumReply 0 5 2953 11959) s).audit.map (fun x => x.state)) = [.matched] := by decide

/-- R12: the lower of the station's rate, the ceiling and 4; R14: the third ECHO REPLY takes the station ONLINE. -/
theorem test_training : candidateRate (some 6) none = 4 ∧ candidateRate (some 3) (some 2) = 2
    ∧ (((after (.echoReply 0 5 echoPattern)
        ((flying .echo .bringUp line).modStn 0 (fun r => { r with state := .training })
          |>.modLink 0 (fun l => { l with training := some { first := 2, rate := 2, phase := .echo 2 } }))).stn 0).state
        = .online) := by decide

/-- R28, R83: the last ACK of a write to a FREE block returns the release and answers DONE. -/
theorem test_relay_done :
    let t := after (.writeAck 0 5) (released (slotted write0 (flying (.write 3 0 [55]) .tool (guarding line))))
    (t.port 0).driven = .asserted ∧ (t.stn 0).expected = 1 ∧ (t.engp 0).tx.map (fun x => x.reply) = [.done 3 0 [55]] := by
  decide

/-- R176: RESET held takes a running guard into reset, and its fall starts it with cause TERMINAL. -/
theorem test_reset_terminal :
    let s := after .resetTerminal { State.reset with guardTime := 77 }
    s.power = .inReset .terminal ∧ (after (.resetTerminalRelease []) s).guardTime = 0
      ∧ (after (.resetTerminalRelease []) s).events = [.restarted .terminal] := by decide

/-- A step takes the first waiting command; with none, one millisecond passes. -/
theorem test_step :
    (match step { State.reset with pending := [.resetTerminal] } with
      | .next t => t.power
      | _ => .running) = .inReset .terminal
      ∧ (match step { State.reset with holdoff := some 5 } with
         | .next t => t.holdoff
         | _ => none) = some 4 := by decide

/-- No row of the table gives bits, so no word spells a command. -/
theorem test_no_words : decodeTableWord 8 1 = none ∧ decodeTableWord 0 0 = none := by decide

/-! ### Witnesses: states and operands that meet the hypotheses of the statements

One theorem per statement, a state per clause. A hypothesis that only names a value in force is left to the term. -/

theorem reset_configuring : State.reset.configuring := ⟨⟨by decide, by decide⟩, by decide⟩

theorem line_map_ok : PortMapOk line.portMap := by
  intro p q i hp hq
  have h : ∀ p : Port, ∀ i, line.portMap[p] = some i → p = 0 := by decide
  rw [h p i hp, h q i hq]

theorem sound_of_asserted (p : InhibitPort) (h : p.driven = .asserted ∧ p.holder = none ∧ p.limitTimer = none
    ∧ p.settleTimer = none) : p.sound := by
  obtain ⟨h1, h2, h3, h4⟩ := h
  simp [InhibitPort.sound, h1, h2, h3, h4]

theorem asserted_releases_ok (s : State) (h : ∀ p : Port, (s.port p).driven = .asserted ∧ (s.port p).holder = none
    ∧ (s.port p).limitTimer = none ∧ (s.port p).settleTimer = none) : ReleasesOk s := by
  intro p
  refine ⟨sound_of_asserted _ (h p), fun hr => ?_⟩
  rw [(h p).1] at hr
  cases hr

theorem alone_of (s : State) (q : StationRequest) (u : LinkUser) (h : s.power = .running ∧ (s.link 0).holder = some u
    ∧ (s.link 0).waiters = [] ∧ (s.link 0).inFlight = some { seq := 5, request := q, owner := some u, timeout := 40 }) :
    Alone s 0 5 q u := ⟨h.1, h.2.1, h.2.2.1, 40, h.2.2.2⟩

theorem test_witness_SupplyAndReset : State.reset.resetLevel = false ∧ State.reset.power = .running
    ∧ { State.reset with power := .inReset .terminal, resetLevel := true }.power = .inReset .terminal
    ∧ { State.reset with power := .unpowered, resetLevel := true }.resetLevel = true := by decide

theorem test_witness_HaltedGuardDoesNothing : { State.reset with power := .unpowered }.power ≠ .running
    ∧ (∀ moved, Instr.guardTimeTick ≠ .powerOn moved) ∧ (∀ moved, Instr.guardTimeTick ≠ .resetTerminalRelease moved)
    ∧ Instr.guardTimeTick ≠ .supplyRemoved
    ∧ ∃ t, exec .guardTimeTick { State.reset with power := .unpowered } = .next t :=
  ⟨by decide, (by intro m h; cases h), (by intro m h; cases h), by decide, ⟨_, rfl⟩⟩

theorem test_witness_TimePasses : State.reset.power = .running ∧ State.reset.pending = []
    ∧ { State.reset with subSecond := 1000 }.subSecond ≤ 1000 ∧ { State.reset with power := .unpowered }.power ≠ .running
    ∧ State.reset.guardTime < 4294967295 ∧ { State.reset with guardTime := 4294967295 }.guardTime = 4294967295
    ∧ (let p := dwell 88 (some (7001, 2))
       let s := { State.reset with params := [(2, p)], guardTime := 7601 }
       s.power = .running ∧ tableGet s.params 2 = some p ∧ p.budget = some (2, 10) ∧ p.window = some (7001, 2)
         ∧ 7001 + 60 * 10 ≤ s.guardTime ∧ 7600 < 7001 + 60 * 10) := by decide

/-- A map with SP0 at station 1, and one that enables SP0 alone. -/
def map2 : PortMapReq := { mode := 2, values := (Vector.replicate 8 0).set 0 1 }
def map1 : PortMapReq := { mode := 1, values := (Vector.replicate 8 0).set 0 1 }
/-- A map that leaves every port unused. -/
def map0 : PortMapReq := { mode := 2, values := Vector.replicate 8 0 }

theorem test_witness_PortMapApplied : line.configuring ∧ PortMapOk line.portMap ∧ ReleasesOk line
    ∧ portMapInRange map2 = true ∧ portMapConflict map2 = false ∧ portMapInRange map1 = true
    ∧ portMapConflict map1 = false ∧ map1.values[0] = 1 ∧ map1.values[1] = 0
    ∧ (line.mapped 0 = true ∧ portMapInRange map0 = true ∧ portMapConflict map0 = false
      ∧ State.mapped { line with portMap := portMapOf map0 } 0 = false)
    ∧ State.mapped { line with portMap := portMapOf map2 } 0 = true :=
  ⟨line_configuring, line_map_ok, asserted_releases_ok _ (by decide), by decide⟩

theorem test_witness_RosterAndTimingSet : State.reset.configuring ∧ stationOf station1.station = some 0
    ∧ nameOf 12 station1.name = some [] ∧ secondOf station1.required = some false
    ∧ clsOf station1.defaultClass = some .fixed ∧ station1.ceiling.getD 0 ≤ 4
    ∧ stationOf 9 = none ∧ nameOf 12 (List.replicate 12 31) = none ∧ secondOf 3 = none ∧ clsOf 0 = none
    ∧ (some 5 : Option Nat).getD 0 > 4 :=
  ⟨reset_configuring, by decide⟩

/-- LINE_RUN with a raw level that has held 40 ms against another accepted one. -/
def bouncing (hold : Nat) : State := State.reset.setInput .lineRun
  { raw := true, accepted := false, hold := hold, checkTime := 128, mode := .both }

theorem test_witness_InputSet : (bouncing 40).configuring ∧ (bouncing 40).changeover.state = .idle
    ∧ inputOf 2 = some .lineRun ∧ edgeOf 4 = some .both ∧ nearestCheckTime 32 = 32
    ∧ ((bouncing 40).inputs.get .lineRun).raw ≠ ((bouncing 40).inputs.get .lineRun).accepted
    ∧ 32 ≤ ((bouncing 40).inputs.get .lineRun).hold ∧ ((bouncing 31).inputs.get .lineRun).hold < 32 :=
  ⟨⟨⟨by decide, by decide⟩, by decide⟩, by decide⟩

/-- 64 windows. -/
def fullWindows : List Window := (List.range 64).map (fun k => { station := 0, first := k, last := k, cls := .free })

theorem test_witness_WindowsLoadAndClassify : State.reset.configuring ∧ stationOf 1 = some 0 ∧ clsOf 4 = some .free
    ∧ 1023 ≤ 1023 ∧ State.reset.windows.length < 64 ∧ 64 ≤ fullWindows.length
    ∧ (∃ w ∈ [({ station := 0, first := 3, last := 5, cls := .free } : Window)],
        w.station = 0 ∧ w.first ≤ 9 ∧ 5 ≤ w.last)
    ∧ stationOf 0 = none ∧ WindowsOk ([] ++ [{ station := 0, first := 3, last := 5, cls := .free }]) :=
  ⟨reset_configuring, by decide, by decide, by decide, by decide, by decide, by decide, by decide,
    by simp [WindowsOk, Config.windowCapacity]⟩

/-- R53: the last index, block and offset, a wide parameter at the ends of its kind's range, and each field just outside. -/
def parameter2 : ParameterReq :=
  { parameter1 with index := 95, block := 1023, offset := 254, width := 2, kind := 2, hmin := 2147483648,
                    hmax := 2147483647, defaultBase := 0, current := 4294967295, low := 4294967295, high := 4294967295,
                    step := some 4294967295, grain := none, budget := some (255, 1440) }

theorem test_witness_ParameterLoaded : State.reset.configuring
    ∧ paramOf parameter1 = some (0, filler) ∧ tableGet State.reset.params 0 = none
    ∧ (∀ e ∈ State.reset.params, e.2.sharesWord filler = false)
    ∧ (∃ e ∈ [(1, filler)], e.2.sharesWord filler = true) ∧ paramOf { parameter1 with width := 3 } = none
    ∧ secondOf 3 = none ∧ stationOf 2 = some 1 ∧ secondOf 2 = some true :=
  ⟨reset_configuring, by decide⟩

/-- R53: the edges of its table are taken, and one step beyond each is not. -/
theorem test_parameter_range : (paramOf parameter2).map (fun x => (x.2.hmin, x.2.hmax, x.2.current))
      = some (-2147483648, 2147483647, -1)
    ∧ paramOf { parameter2 with index := 96 } = none ∧ paramOf { parameter2 with block := 1024 } = none
    ∧ paramOf { parameter2 with offset := 255 } = none ∧ paramOf { parameter2 with grain := some 0 } = none
    ∧ paramOf { parameter2 with grain := some 2 } = none ∧ paramOf { parameter2 with budget := some (0, 1) } = none
    ∧ paramOf { parameter2 with budget := some (1, 1441) } = none ∧ paramOf { parameter1 with low := 65536 } = none
    ∧ paramOf { parameter1 with current := 5075 } = none := by decide

theorem test_witness_ImagesLoaded :
    let s := { State.reset with images := [] ++ image0 :: [] }
    s.configuring ∧ findImage State.reset.images 159 = none ∧ reservedWords State.reset.images + 256 ≤ 32768
      ∧ ([] ++ [] : List Image).all (fun x => decide (x.id ≠ image0.id)) = true ∧ image0.id < 160
      ∧ image0.capture = none ∧ image0.words.length = 0 ∧ 0 + 2 ≤ image0.length ∧ image0.length < 0 + 3
      ∧ 1 ≠ image0.words.length ∧ ([17, 30] : List Word).length = 2 :=
  ⟨⟨⟨by decide, by decide⟩, by decide⟩, by decide⟩

theorem test_witness_AuditEntryAdded : (tables line).configuring ∧ stationOf 1 = some 0 ∧ secondOf 1 = some false
    ∧ (none : Option Nat).getD 0 < 160 ∧ (tables line).audit.length < 128
    ∧ (∃ e ∈ (tables line).audit, e.station = 0 ∧ e.block = 7) ∧ ¬ (∃ e ∈ (tables line).audit, e.station = 0 ∧ e.block = 8)
    ∧ 128 ≤ (List.replicate 128 entry0).length :=
  ⟨⟨⟨by decide, by decide⟩, by decide⟩, by decide, by decide, by decide, by decide, by decide, by decide,
    by simp⟩

theorem test_witness_RecipesLoaded : (tables line).configuring ∧ tableGet (tables line).recipes 1 = some recipe1
    ∧ recipe1.blocks.length < 48 ∧ recipe1.blockAt 0 8 = none
    ∧ tableGet (tables line).params 0 = some param0 ∧ ({ recipe1 with values := [] } : Recipe).values.length < 96
    ∧ tableGet ({ recipe1 with values := [] } : Recipe).values 0 = none
    ∧ param0.hmin ≤ valueOf param0.signed 100 ∧ valueOf param0.signed 100 ≤ param0.hmax
    ∧ recipeBlockOf { format := 2, station := 1, block := 7, pass := 3, image := 159 }
        = some { station := 0, block := 7, pass := 3, image := 159 } ∧ tableGet (tables line).recipes 2 = none
    ∧ tableGet (tables line).params 95 = none ∧ nameOf 16 (65 :: List.replicate 15 0) = some [65]
    ∧ ([65] : List Byte) ≠ [] ∧ nameOf 16 (31 :: List.replicate 15 0) = none
    ∧ recipe1.values.Pairwise (fun x y => x.1 < y.1) :=
  ⟨⟨⟨by decide, by decide⟩, by decide⟩, by decide⟩

theorem test_witness_ActiveFormatDeclared : (keyed (tables line)).configuring ∧ (keyed (tables line)).keyMaint = true
    ∧ tableGet (keyed (tables line)).recipes 1 = some recipe1
    ∧ (∀ x ∈ recipe1.values, x = (0, 55)) ∧ tableGet (tables line).params 0 = some param0
    ∧ (max ((55 : Int) - param0.low) param0.hmin ≤ param0.current ∧ param0.current ≤ min ((55 : Int) + param0.high) param0.hmax
        ∧ (param0.grain : Int) ∣ param0.current - 55)
    ∧ recipe1.values.Pairwise (fun a b => a.1 ≠ b.1)
    ∧ [(0, (70 : Int))] = [] ++ (0, 70) :: [] ∧ ¬ max ((70 : Int) - param0.low) param0.hmin ≤ param0.current
    ∧ ¬ (param0.grain : Int) ∣ param0.current - 53 :=
  ⟨⟨⟨by decide, by decide⟩, by decide⟩, by decide⟩

theorem test_witness_TablesCleared : (tables line).configuring ∧ (∀ im ∈ (tables line).images, im.capture = none)
    ∧ ∃ im ∈ [{ image0 with capture := some 0 }], im.capture ≠ none :=
  ⟨⟨⟨by decide, by decide⟩, by decide⟩, by decide⟩

theorem test_witness_ArmGuards :
    let s := { line with
      audit := [{ entry0 with cls := none, expected := none }], images := [image1], params := [(0, param0)]
      windows := [{ station := 0, first := 3, last := 3, cls := .tunable }, { station := 0, first := 9, last := 9, cls := .format }]
      recipes := [(1, { recipe1 with blocks := [{ station := 0, block := 9, pass := 1, image := 0 }] })] }
    s.configuring ∧ armFault s = none
      ∧ (armFault { s with activeFormat := 3 }).isSome = true
      ∧ (armFault { s with windows := [] }).isSome = true
      ∧ (armFault { s with recipes := [(1, recipe1)] }).isSome = true
      ∧ (armFault { s with audit := [{ entry0 with station := 1 }] }).isSome = true
      ∧ (armFault { s with audit := [{ entry0 with image := none }] }).isSome = true
      ∧ (armFault { s with audit := [{ entry0 with length := 3 }] }).isSome = true
      ∧ armFault { s with audit := [{ entry0 with block := 9, image := none }, { entry0 with block := 3 }] } = none
      ∧ (armFault { s with audit := [{ entry0 with block := 9, image := none, length := 1 }] }).isSome = true :=
  ⟨⟨⟨by decide, by decide⟩, by decide⟩, by decide⟩

theorem test_witness_DisarmConfigures : (keyed (guarding (tables line))).taking
    ∧ (keyed (guarding (tables line))).locked = false ∧ (keyed (guarding (tables line))).keyMaint = true
    ∧ (∀ i : Station, ((keyed (guarding (tables line))).stn i).slot = none)
    ∧ (keyed (guarding (tables line))).changeover.state = .idle ∧ (keyed (guarding (tables line))).sched.check = none
    ∧ (guarding line).keyMaint = false ∧ ((slotted read0 line).stn 0).slot ≠ none
    ∧ { guarding line with locked := true }.locked = true
    ∧ (keyed (inCheck .summing entry0)).taking ∧ ((keyed (inCheck .summing entry0)).link 0).inFlight ≠ none
    ∧ ((keyed (inCheck .summing entry0)).link 0).holder = some .audit
    ∧ ((keyed waitingCheck).link 0).holder ≠ none ∧ ((keyed waitingCheck).link 0).holder ≠ some .audit
    ∧ ((keyed waitingCheck).sched.check.map (fun c => c.station)) = some 0 :=
  ⟨⟨by decide, by decide⟩, by decide, by decide, by decide, by decide, by decide, by decide, by decide, by decide,
    ⟨by decide, by decide⟩, by decide⟩

/-- R172, R129, R20: DISARM abandons the check that holds the link and the one that waits for it. -/
theorem test_disarm_abandons : (after (.disarm 1) (keyed (inCheck .summing entry0))).sched = .stopped
    ∧ ((after (.disarm 1) (keyed (inCheck .summing entry0))).link 0).holder = none
    ∧ ((after (.disarm 1) (keyed (inCheck .summing entry0))).link 0).inFlight.map (fun x => x.owner) = some none
    ∧ ((after (.disarm 1) (keyed waitingCheck)).link 0).waiters = []
    ∧ ((after (.disarm 1) (keyed waitingCheck)).link 0).holder = some .presence := by decide

/-- The guard while RESTART's reply is being sent, with a request held. -/
def restarting : State :=
  { line with sup := { line.sup with
      answering := some (replyOf 1 false (.ok .none)), held := some (2, .arm), restarting := true } }

theorem test_witness_LockAndRestart : (guarding line).taking ∧ (guarding line).stage = .guarding ∧ line.taking
    ∧ line.stage = .configure ∧ { guarding line with locked := true }.taking ∧ line.locked = false
    ∧ restarting.power = .running ∧ restarting.sup.restarting = true
    ∧ restarting.sup.answering = some (replyOf 1 false (.ok .none)) :=
  ⟨⟨by decide, by decide⟩, by decide, ⟨by decide, by decide⟩, by decide, ⟨by decide, by decide⟩, by decide⟩

/-- R175, R156: a request that arrives while RESTART's reply is sent is held, and the start-up discards it unanswered. -/
theorem test_restart_discards :
    let s := after (.restart 1 []) line
    s.sup.restarting = true ∧ s.stage = .configure ∧ (s.stn 0).state = .online
      ∧ (after (.requestHeld 2 .arm) s).sup.held = some (2, .arm)
      ∧ (after .replyTransmitted restarting).sup.held = none ∧ (after .replyTransmitted restarting).sup.answering = none
      ∧ (after .replyTransmitted restarting).events = [.restarted .request]
      ∧ ((after .replyTransmitted restarting).stn 0).state = .disabled := by decide

theorem test_witness_LockHolds : { guarding line with locked := true }.taking ∧ lockable .arm = true
    ∧ RestartOk { guarding line with locked := true } ∧ (tables line).images[0]? = some image1 ∧ image1.capture = none
    ∧ commandOf 1 .arm = some (.arm 1) ∧ (∃ t, exec .guardTimeTick { guarding line with locked := true } = .next t)
    ∧ (∀ moved, Instr.guardTimeTick ≠ .powerOn moved) ∧ Instr.guardTimeTick ≠ .resetTerminal
    ∧ (∀ moved, Instr.guardTimeTick ≠ .resetTerminalRelease moved) ∧ Instr.guardTimeTick ≠ .supplyRemoved :=
  ⟨⟨by decide, by decide⟩, by decide, (by intro h; cases h), by decide, by decide, by decide, ⟨_, rfl⟩,
    (by intro m h; cases h), by decide, (by intro m h; cases h), by decide⟩

theorem test_witness_RefusalChangesNothing : (respond (.readStation 9) line).1.status = .refused := by decide

theorem test_witness_ReportsChangeNothing : (tables line).taking ∧ (tables line).mapped 0 = true
    ∧ tableGet (tables line).params 0 = some param0 ∧ param0.openWindow (tables line).guardTime = param0.window
    ∧ (tables line).audit[0]? = some entry0 ∧ tableGet (tables line).params 95 = none
    ∧ (tables line).audit.length ≤ 127 ∧ (guarding line).permit = true
    ∧ ((guarding line).setInput .cover { raw := true, accepted := true, hold := 0, checkTime := 0, mode := .none }).coverPosture
        = true :=
  ⟨⟨by decide, by decide⟩, by decide⟩

theorem test_witness_EventsTaken : State.reset.taking ∧ State.reset.events.length ≤ 8 ∧ State.reset.attention = true
    ∧ 0 < State.reset.timing.holdoff ∧ { State.reset with holdoff := some 3 }.holdoff ≠ none
    ∧ 8 < (List.replicate 9 (Event.restarted .power)).length
    ∧ [Event.restarted .power] = [] ++ Event.restarted .power :: [] ∧ (Event.restarted .power).source = .guard
    ∧ (Event.restarted .power).detail.kind = (Detail.restarted .request).kind
    ∧ (∀ e ∈ [Event.restarted .power], ¬ (e.source = .controller ∧ e.detail.kind = .operationDone)) :=
  ⟨⟨by decide, by decide⟩, by decide⟩

/-- R165: a second event of one key is gathered where it stands; the 256th leaves the count at 255. -/
theorem test_gather :
    let change (level : Bool) (t : Nat) (es : List Event) : List Event := postEvent t (.input .key) (.inputChange level) es
    change false 9 (change true 4 [.restarted .power]) = [.restarted .power,
        { source := .input .key, detail := .inputChange false, first := 4, last := 9, count := 2 }]
      ∧ (postEvent 7 .guard (.restarted .request) [{ Event.restarted .power with count := 255 }]).map (fun e => e.count)
        = [255] := by decide

theorem test_witness_DriftAndSweeps :
    let s := guarding (tables line)
    let d := { s with audit := [{ entry0 with state := .drift }] }
    let q := { s with sched := { s.sched with sweeps := queueSweep 0 [] } }
    s.taking ∧ s.audit[0]? = some entry0 ∧ entry0.state ≠ .drift ∧ d.taking
      ∧ d.audit[0]? = some { entry0 with state := .drift } ∧ s.stage = .guarding ∧ (s.stn 0).state = .online
      ∧ (∀ x ∈ s.sched.sweeps, x.station ≠ 0) ∧ (∃ x ∈ q.sched.sweeps, x.station = 0) ∧ (s.stn 1).state ≠ .online
      ∧ line.taking ∧ line.stage = .configure :=
  ⟨⟨by decide, by decide⟩, by decide, by decide, ⟨by decide, by decide⟩, by decide, by decide, by decide, by decide,
    by decide, by decide, ⟨by decide, by decide⟩, by decide⟩

/-- Station 1 QUARANTINED with KEY at MAINT. -/
def quarantined : State := (keyed line).modStn 0 (fun r => { r with state := .quarantined, reason := some .inhibit })

theorem test_witness_QuarantineReleased : quarantined.taking ∧ quarantined.keyMaint = true
    ∧ (quarantined.stn 0).state = .quarantined ∧ (quarantined.link 0).waiters = [] ∧ (quarantined.link 0).holder = none
    ∧ PortMapOk quarantined.portMap ∧ ReleasesOk quarantined ∧ line.keyMaint = false
    ∧ ((keyed line).stn 0).state ≠ .quarantined :=
  ⟨⟨by decide, by decide⟩, by decide, by decide, by decide, by decide, line_map_ok, asserted_releases_ok _ (by decide), by decide⟩

theorem test_witness_AccessChannels :
    let s := { line with images := [image0] }
    let d := s.setChan 0 { state := .done, work := none }
    s.configuring ∧ (s.stn 0).state = .online ∧ (s.link 0).holder = none ∧ (s.link 0).waiters = []
      ∧ (s.link 0).inFlight = none ∧ (s.chan 0).state = .free ∧ findImage s.images 0 = some image0
      ∧ image0.words = [] ∧ image0.capture = none ∧ d.taking ∧ (d.chan 0).state ≠ .free ∧ (d.chan 1).state = .free
      ∧ (s.chan 1).state ≠ .done ∧ 255 + 1 ≤ 256 :=
  ⟨⟨⟨by decide, by decide⟩, by decide⟩, by decide, by decide, by decide, by decide, by decide, by decide,
    by decide, by decide, ⟨by decide, by decide⟩, by decide⟩

theorem test_witness_ChangeoverOpened :
    let s := keyed (guarding (tables line))
    s.taking ∧ s.stage = .guarding ∧ s.changeover.state = .idle ∧ tableGet s.recipes 1 = some recipe1
      ∧ ¬ (recipe1.blocks = [] ∧ recipe1.values = []) ∧ recipeStations s.params recipe1 = [0]
      ∧ (∃ it ∈ recipe1.blocks, it.station = 0) ∧ (∀ it ∈ recipe1.blocks, it.station = 0)
      ∧ (∀ x ∈ recipe1.values, (tableGet s.params x.1).map (fun p => p.station) = some 0)
      ∧ s.inputs.key.accepted = true ∧ s.inputs.lineRun.accepted = false
      ∧ (∀ i ∈ [(0 : Station)], (s.stn i).state = .online ∧ ((s.stn i).mode = some .stop ∨ (s.stn i).mode = some .fault)
          ∧ (s.stn i).slot = none) ∧ s.sched.check = none ∧ (guarding line).inputs.key.accepted = false :=
  ⟨⟨by decide, by decide⟩, by decide⟩

/-- A changeover of format 1 on station 1, in a state of the controller. -/
def changing (st : ChState) (s : State) : State :=
  { s with changeover := { Changeover.idle with
      state := st, kind := some .changeover, target := some 1, stations := [0] } }

theorem test_witness_ChangeoverApplied :
    let s := changing .opened (keyed (guarding (tables line)))
    let f := { changing .failed (keyed (guarding (tables line))) with activeFormat := 1 }
    let e := { f with recipes := [(1, { recipe1 with blocks := [], values := [] })] }
    s.taking ∧ s.changeover.state = .opened ∧ f.taking ∧ f.changeover.state = .failed ∧ f.activeFormat ≠ 0
      ∧ (∀ i ∈ s.changeover.stations, (s.stn i).state = .online
          ∧ ((s.stn i).mode = some .stop ∨ (s.stn i).mode = some .fault))
      ∧ tableGet s.recipes (s.changeover.target.getD 0) = some recipe1
      ∧ workList s.params recipe1 s.changeover.stations = .block 0 7 1 0 :: [.values 0 [(0, 55)]]
      ∧ (s.stn 0).state = .online ∧ (s.link 0).holder = none ∧ (s.link 0).waiters = [] ∧ (s.link 0).inFlight = none
      ∧ tableGet f.recipes f.activeFormat = some recipe1
      ∧ workList e.params { recipe1 with blocks := [], values := [] } e.changeover.stations = []
      ∧ (changing .failed (guarding line)).activeFormat = 0 :=
  ⟨⟨by decide, by decide⟩, by decide, ⟨by decide, by decide⟩, by decide⟩

/-- A step of a changeover at work with a request in flight. -/
def working (st : ChState) (w : Step) (q : StationRequest) : State :=
  let s := flying q .changeover (guarding (tables line))
  { s with changeover := { Changeover.idle with
      state := st, kind := some .changeover, target := some 1, stations := [0], work := [w], position := some 0 } }

theorem test_witness_HoldEnds : (changing .opened (guarding line)).taking
    ∧ (changing .opened (guarding line)).changeover.state = .opened
    ∧ (changing .failed (guarding line)).changeover.state = .failed ∧ (guarding line).taking
    ∧ (guarding line).changeover.state = .idle
    ∧ (changing .applying (guarding line)).changeover.state = .applying
    ∧ ({ changing .opened (guarding line) with audit := [{ entry0 with state := .suspended }] }).audit[0]?
        = some { entry0 with state := .suspended }
    ∧ Alone (working .applying (.values 0 [(0, 55)]) .state) 0 5 .state .changeover
    ∧ (working .applying (.values 0 [(0, 55)]) .state).changeover.step = some (.values 0 [(0, 55)])
    ∧ (working .applying (.values 0 [(0, 55)]) .state).changeover.stop = none
    ∧ ((working .applying (.values 0 [(0, 55)]) .state).stn 0).missed < 2 ∧ ChKind.changeover ≠ .restore
    ∧ Alone (working .verifying (.block 0 7 1 0) (.read 7 0 2)) 0 5 (.read 7 0 2) .changeover
    ∧ (imageWords (tables line).images 0).length ≤ 0 + 2
    ∧ imagePrint (tables line).images 0 ≠ some (fingerprint [17, 31])
    ∧ Alone (working .verifying (.values 0 [(0, 55)]) (.read 3 0 1)) 0 5 (.read 3 0 1) .changeover
    ∧ tableGet (tables line).params 0 = some param0 ∧ ([54] : List Word) ≠ param0.encode 55 :=
  ⟨⟨by decide, by decide⟩, by decide, by decide, ⟨by decide, by decide⟩, by decide, by decide, by decide,
    alone_of _ _ _ (by decide), by decide, by decide, by decide, by decide, alone_of _ _ _ (by decide), by decide,
    by decide, alone_of _ _ _ (by decide), by decide⟩

/-- R148, R151: a readback that differs fails the changeover, naming the value of the step, and its station is MIXED. -/
theorem test_mismatch :
    let t := after (.dataReply 0 5 [54]) (working .verifying (.values 0 [(0, 55)]) (.read 3 0 1))
    t.changeover.state = .failed ∧ (t.stn 0).format = .mixed ∧ t.changeover.stations = [0]
      ∧ t.changeover.failure.map (fun f => (f.cause, f.item, f.seen))
          = some (.mismatch, some (.parameter 0), some (.words [54])) := by decide

/-- A restore at its WRITE, and one whose readback differs at offset 1. -/
theorem test_witness_HoldEnds_restore :
    let as (s : State) : State := { s with changeover := { s.changeover with kind := some .restore, restoreEntry := some 0 } }
    let s := as (working .applying (.restore 0 7 [17, 30]) (.write 7 0 [17, 30]))
    let v := as (working .verifying (.restore 0 7 [17, 30]) (.read 7 0 2))
    Alone s 0 5 (.write 7 0 [17, 30]) .changeover ∧ (s.stn 0).state = .online ∧ s.changeover.state = .applying
      ∧ s.changeover.step = some (.restore 0 7 [17, 30]) ∧ s.changeover.kind = some .restore
      ∧ s.changeover.restoreEntry = some 0 ∧ s.changeover.stop = none ∧ rejectOf 2 = some .writeProtected
      ∧ (s.stn 0).missed < 2 ∧ Alone v 0 5 (.read 7 0 2) .changeover ∧ v.changeover.state = .verifying
      ∧ [(17 : Word), 30].length ≤ v.changeover.done + 2 ∧ (v.changeover.got ++ [17, 31]).take 1 = [17, 30].take 1
      ∧ [(17 : Word), 30][1]? = some 30 ∧ (v.changeover.got ++ [17, 31])[1]? = some 31 ∧ (30 : Word) ≠ 31 :=
  ⟨alone_of _ _ _ (by decide), by decide, by decide, by decide, by decide, by decide, by decide, by decide, by decide,
    alone_of _ _ _ (by decide), by decide⟩

/-- R154: a restore whose readback differs names the lowest offset, and the controller is IDLE. -/
theorem test_restore_mismatch :
    let s := working .verifying (.restore 0 7 [17, 30]) (.read 7 0 2)
    let s := { s with changeover := { s.changeover with kind := some .restore, restoreEntry := some 0 } }
    let t := after (.dataReply 0 5 [17, 31]) s
    t.changeover = .idle ∧ (t.stn 0).format = (s.stn 0).format
      ∧ t.events.map (fun e => e.detail) = [.restarted .power, .operationDone .restore .failed 0 (some
          { cause := .mismatch, station := some 0, item := some (.block 7), pass := none, seen := some (.offset 1) })]
    := by decide

theorem test_witness_RestoreBegun :
    let s := keyed (guarding (tables line))
    let unnamed : AuditEntry := { entry0 with cls := some .format, state := .drift }
    s.taking ∧ s.stage = .guarding ∧ s.changeover.state = .idle ∧ s.audit[0]? = some entry0
      ∧ ¬ (entry0.state = .notApplicable ∨ entry0.cls = some .format ∧ entry0.state = .drift ∧ entry0.resolved = none)
      ∧ s.inputs.key.accepted = true ∧ s.inputs.lineRun.accepted = false ∧ (s.stn 0).state = .online
      ∧ (s.stn 0).slot = none ∧ s.sched.check = none ∧ (s.link 0).holder = none ∧ (s.link 0).waiters = []
      ∧ (s.link 0).inFlight = none ∧ entry0.cls = some .fixed ∧ entry0.image = some 0
      ∧ unnamed.cls = some .format ∧ unnamed.state = .drift ∧ unnamed.resolved = none
      ∧ ({ entry0 with state := .notApplicable } : AuditEntry).state = .notApplicable
      ∧ (guarding (tables line)).inputs.key.accepted = false ∧ ((slotted read0 s).stn 0).slot ≠ none
      ∧ s.audit[1]? = none :=
  ⟨⟨by decide, by decide⟩, by decide⟩

/-- R153: the restore words of a TUNABLE entry are its image with the parameter's current value in place of its word, and
those of a FORMAT entry its resolved image. -/
theorem test_restore_words :
    let s := keyed (guarding (tables line))
    let steps (e : AuditEntry) : List Step := (after (.restoreBlock 1 0) { s with audit := [e] }).changeover.work
    steps { entry0 with block := 3, cls := some .tunable } = [.restore 0 3 [50, 30]]
      ∧ steps { entry0 with cls := some .format, image := none, resolved := some 0 } = [.restore 0 7 [17, 30]] := by decide

/-- A supervisor link that is sending a reply. -/
def answering (held : Option (Byte × SupRequest)) : State :=
  { line with sup := { line.sup with answering := some (replyOf 1 false (.ok .none)), held := held } }

theorem test_witness_SupervisorLinkHolds : line.taking ∧ parseRequest 0xFF [] = .badRecord
    ∧ (answering none).sup.answering = some (replyOf 1 false (.ok .none)) ∧ (answering none).sup.held = none
    ∧ (answering (some (2, .arm))).sup.held = some (2, .arm) ∧ (answering (some (2, .arm))).power = .running
    ∧ commandOf 2 .arm = some (.arm 2) ∧ (answering none).sup.restarting = false ∧ line.listens (.station 0) = true
    ∧ line.rxOf (.station 0) = [] ∧ ((0, 0) : Byte × Byte) ≠ checkBytes (Frame.covered { kind := 5, tag := 1, body := [] })
    ∧ 200 < (201 : Byte).toNat :=
  ⟨⟨by decide, by decide⟩, by decide⟩

theorem test_witness_FrameTakenWhole : line.power = .running ∧ line.listens (.station 0) = true
    ∧ line.rxOf (.station 0) = [] ∧ line.listens .supervisor = true
    ∧ (port1 .ready line).listens (.engineering 0) = true ∧ (List.replicate 200 (0 : Byte)).length ≤ 200 :=
  ⟨by decide, by decide, by decide, by decide, by decide, Nat.le_of_eq List.length_replicate⟩

theorem test_witness_BodiesRoundTrip : SupRequest.wf (.setStation station1) = true
    ∧ SupRequest.setStation station1 ≠ .badRecord
    ∧ ToolRequest.wf (.read { station := 1, block := 1023, offset := 255, count := 1 }) = true
    ∧ StationReply.wf (.echoReply (List.replicate 32 0)) = true := by decide

theorem test_witness_ToolFramesAnswered : (port1 .ready line).power = .running
    ∧ ((port1 .ready line).engp 0).state = .ready ∧ parseTool 0xFF [] = .bad
    ∧ ((port1 .waiting line).engp 0).state = .waiting
    ∧ (((port1 .lockedOut line).modEng 0 (fun p => { p with lockout := some 1 })).engp 0).lockout = some 1
    ∧ (line.engp 0).state = .detached ∧ ((port1 .settling line).engp 0).state = .settling := by decide

theorem test_witness_ToolReadAdmitted : (port1 .ready line).power = .running
    ∧ ((port1 .ready line).engp 0).state = .ready ∧ stationOf 1 = some 0 ∧ ((port1 .ready line).stn 0).state = .online
    ∧ ((port1 .ready line).stn 0).slot = none ∧ ((port1 .ready line).link 0).holder = none
    ∧ ((port1 .ready line).link 0).waiters = [] ∧ ((port1 .ready line).link 0).inFlight = none
    ∧ ((port1 .ready (flying .state .presence line)).link 0).holder ≠ none
    ∧ ((port1 .ready (slotted read0 line)).stn 0).slot ≠ none
    ∧ ((port1 .ready quarantined).stn 0).state = .quarantined ∧ ((port1 .ready line).stn 1).state ≠ .online
    ∧ ((port1 .ready line).stn 1).state ≠ .quarantined ∧ 255 + 1 ≤ 256 ∧ 192 + 64 ≤ 256 := by decide

theorem test_witness_ToolWriteAdmitted :
    let s := port1 .ready (guarding (tables line))
    s.power = .running ∧ (s.engp 0).state = .ready ∧ s.stage = .guarding ∧ (s.stn 0).state = .online
      ∧ (s.stn 0).format ≠ .mixed ∧ s.held 0 = false ∧ s.coverPosture = false ∧ (s.stn 0).slot = none
      ∧ s.portOf 0 = some 0 ∧ (s.port 0).monitor ≠ .fault ∧ (s.port 0).holder = none ∧ s.classOf 0 3 = .tunable
      ∧ judge s.params 0 3 0 [55] s.guardTime = .forward [55] false [(0, 55)]
      ∧ judge s.params 0 3 0 [50] s.guardTime = .noChange [50] ∧ (s.link 0).holder = none ∧ (s.link 0).waiters = []
      ∧ (s.link 0).inFlight = none ∧ ((flying .state .presence s).link 0).holder ≠ none
      ∧ { s with windows := [{ station := 0, first := 3, last := 3, cls := .free }] }.classOf 0 3 = .free
      ∧ ((s.modPort 0 (fun p => { p with jumper := .none })).port 0).jumper = .none
      ∧ 0 < s.roster[0].releaseSettle := by decide

theorem test_witness_ToolWriteRefusals :
    let s := port1 .ready (guarding line)
    (s.engp 0).state = .ready ∧ line.stage = .configure ∧ s.stage = .guarding ∧ (s.stn 1).state ≠ .online
      ∧ (s.stn 1).state ≠ .quarantined ∧ (quarantined.stn 0).state = .quarantined
      ∧ ((s.modStn 0 (fun r => { r with format := .mixed })).stn 0).format = .mixed
      ∧ (changing .failed s).held 0 = true
      ∧ (s.setInput .cover { raw := true, accepted := true, hold := 0, checkTime := 0, mode := .none }).coverPosture = true
      ∧ ((slotted read0 s).stn 0).slot ≠ none := by decide

theorem test_witness_PolicyRefusalStrikes :
    let s := port1 .ready (guarding (tables line))
    s.power = .running ∧ (s.engp 0).state = .ready ∧ s.stage = .guarding ∧ (s.stn 0).state = .online
      ∧ (s.stn 0).format ≠ .mixed ∧ s.held 0 = false ∧ s.coverPosture = false ∧ (s.stn 0).slot = none
      ∧ s.classOf 0 12 = .fixed ∧ (s.engp 0).strikes + 1 < s.timing.strikeLimit
      ∧ s.timing.strikeLimit ≤ ((s.modEng 0 (fun p => { p with strikes := 2 })).engp 0).strikes + 1
      ∧ { s with windows := [{ station := 0, first := 20, last := 29, cls := .format }] }.classOf 0 22 = .format
      ∧ s.classOf 0 3 = .tunable ∧ judge s.params 0 3 0 [61] s.guardTime = .refuse .band 0
      ∧ judge s.params 0 3 0 [50, 1] s.guardTime = .refuse .unguarded 1 := by decide

/-- The table of chapter 4's worked examples meets the premise of the judgement; its cases: `test_two_parameters` and
`test_split_and_unguarded`. -/
theorem test_witness_judgement : ParamsOk [(1, torque 328), (2, dwell 88 none)] ∧ ParamsOk [(12, registration)] := by
  refine ⟨⟨by decide, by decide⟩, ⟨by decide, by decide⟩⟩

theorem test_witness_PortAttachmentAndTimers :
    let s := (port1 .settling line).modEng 0 (fun p =>
      { p with settleTimer := some 2000, detachTimer := some 50, strikeWindow := some 1, lockout := some 1 })
    line.power = .running ∧ (line.engp 0).present = false ∧ (line.engp 0).state = .detached ∧ (s.engp 0).present = true
      ∧ (s.engp 0).state = .settling ∧ (s.engp 0).settleTimer ≠ none ∧ (s.engp 0).detachTimer ≠ none
      ∧ (s.engp 0).strikeWindow ≠ none ∧ (s.engp 0).lockout ≠ none
      ∧ ((s.modEng 0 (fun p => { p with present := false })).engp 0).present = false := by decide

theorem test_witness_LinkTimersExpire :
    let d := (line.modStn 0 (fun r => { r with state := .down })).modLink 0 (fun l => { l with identTimer := some 1000 })
    let t := (line.modStn 0 (fun r => { r with state := .training })).modLink 0 (fun l =>
      { l with training := some { first := 4, rate := 0 + 1, phase := .pause 1200 } })
    let p := line.modLink 0 (fun l => { l with pollTimer := some 400 })
    d.power = .running ∧ (d.link 0).inFlight = none ∧ (d.stn 0).state = .down ∧ (d.link 0).identTimer ≠ none
      ∧ (t.link 0).inFlight = none ∧ (t.stn 0).state = .training
      ∧ (t.link 0).training = some { first := 4, rate := 0 + 1, phase := .pause 1200 } ∧ (p.stn 0).state = .online
      ∧ (p.link 0).pollTimer ≠ none ∧ (p.link 0).holder = none ∧ (p.link 0).waiters = [] := by decide

theorem test_witness_IdentReplyTaken :
    let s := (flying .ident .bringUp line).modStn 0 (fun r => { r with state := .down })
    Alone s 0 5 .ident .bringUp ∧ (s.stn 0).state = .down ∧ (s.link 0).training = none ∧ 16 ≤ (16 : Byte).toNat
      ∧ s.portOf 0 = some 0 ∧ (s.port 0).monitor ≠ .fault ∧ (∀ p : Port, s.portOf 0 = some p → p = 0)
      ∧ s.roster[0].maker = none ∧ s.roster[0].model = none ∧ s.roster[0].serial = none
      ∧ (∃ x, { s.roster[0] with maker := some 9 }.maker = some x ∧ x ≠ 1)
      ∧ ((s.modPort 0 (fun p => { p with monitor := .fault })).port 0).monitor = .fault :=
  ⟨alone_of _ _ _ (by decide), by decide, by decide, by decide, by decide, by decide, by decide, by decide, by decide,
    by decide, ⟨9, by decide⟩, by decide⟩

/-- R11, R21, R31: a port in FAULT quarantines its station at the IDENT REPLY, with reason INHIBIT, and stays in FAULT. -/
theorem test_ident_fault :
    let s := (flying .ident .bringUp line).modStn 0 (fun r => { r with state := .down })
    let t := after (.identReply 0 5 1 2 3 4 4 32) (s.modPort 0 (fun p => { p with monitor := .fault }))
    (t.stn 0).state = .quarantined ∧ (t.stn 0).reason = some .inhibit ∧ (t.port 0).monitor = .fault
      ∧ (t.link 0).inFlight.map (fun x => x.request) = some .state := by decide

/-- Station 1 in TRAINING with a request in flight. -/
def training (q : StationRequest) (rate : Nat) (ph : TrainPhase) : State :=
  ((flying q .bringUp line).modStn 0 (fun r => { r with state := .training })).modLink 0 (fun l =>
    { l with training := some { first := 4, rate := rate, phase := ph } })

theorem test_witness_TrainingReplies : Alone (training (.setRate 2) 2 .setRate) 0 5 (.setRate 2) .bringUp
    ∧ ((training (.setRate 2) 2 .setRate).stn 0).state = .training
    ∧ ((training (.setRate 2) 2 .setRate).link 0).training = some { first := 4, rate := 2, phase := .setRate }
    ∧ Alone (training .echo 2 (.echo 1)) 0 5 .echo .bringUp ∧ Alone (training .echo 2 (.echo 2)) 0 5 .echo .bringUp
    ∧ ((training .echo 2 (.echo 2)).link 0).training = some { first := 4, rate := 2, phase := .echo 2 }
    ∧ (List.replicate 32 (0 : Byte)).length = 32 ∧ List.replicate 32 (0 : Byte) ≠ echoPattern
    ∧ Alone (training .echo 0 (.echo 0)) 0 5 .echo .bringUp ∧ rejectOf 1 = some .range
    ∧ ((training .echo 0 (.echo 0)).link 0).training = some { first := 4, rate := 0, phase := .echo 0 } :=
  ⟨alone_of _ _ _ (by decide), by decide, by decide, alone_of _ _ _ (by decide), alone_of _ _ _ (by decide), by decide,
    by decide, by decide, alone_of _ _ _ (by decide), by decide⟩

/-- R13: a REJECT at rate 2 pauses at rate 0; a silent step at rate 0 takes the station back to DOWN. -/
theorem test_training_fails :
    let r := after (.rejectReply 0 5 1) (training (.setRate 2) 2 .setRate)
    let d := after (.replyTimeout 0) (training .echo 0 (.echo 1))
    (r.stn 0).state = .training ∧ (r.link 0).training = some { first := 4, rate := 2, phase := .pause 1200 }
      ∧ (d.stn 0).state = .down ∧ (d.link 0).identTimer = some 1000 ∧ (d.link 0).holder = some .bringUp := by decide

theorem test_witness_StateReplyTaken : Alone (flying .state .presence line) 0 5 .state .presence
    ∧ ((flying .state .presence line).stn 0).state = .online ∧ plcModeOf 1 = some .run
    ∧ ((flying .state .presence line).stn 0).uncertain = false ∧ (7 : Word) ≠ ((flying .state .presence line).stn 0).expected
    ∧ line.stage = .configure ∧ (flying .state .presence (guarding line)).stage = .guarding
    ∧ Alone (flying .state .presence (guarding line)) 0 5 .state .presence
    ∧ Alone (flying .state .presence quarantined) 0 5 .state .presence
    ∧ ((flying .state .presence quarantined).stn 0).state = .quarantined :=
  ⟨alone_of _ _ _ (by decide), by decide, by decide, by decide, by decide, by decide, by decide,
    alone_of _ _ _ (by decide), alone_of _ _ _ (by decide), by decide⟩

/-- R18: a QUARANTINED station's counter posts UNEXPECTED_CHANGE and asks for no sweep. -/
theorem test_counter_quarantined :
    let t := after (.stateReply 0 5 2 7) (flying .state .presence (guarding quarantined))
    t.events.map (fun e => e.detail) = [.restarted .power, .unexpectedChange 7] ∧ t.sched.sweeps = [] := by decide

/-- A step of the controller waits for its STATE REPLY: a block, a station's values, and a restore. -/
theorem test_witness_StateReplyTaken_step :
    let s := working .applying (.block 0 7 1 0) .state
    let v := working .applying (.values 0 [(0, 55)]) .state
    let r := working .applying (.restore 0 7 [17, 30]) .state
    Alone s 0 5 .state .changeover ∧ (s.stn 0).state = .online ∧ plcModeOf 2 = some .stop ∧ PlcMode.stop ≠ .run
      ∧ s.stage = .guarding ∧ s.changeover.state = .applying ∧ s.changeover.step = some (.block 0 7 1 0)
      ∧ Step.station (.block 0 7 1 0) = 0 ∧ s.changeover.kind = some .changeover ∧ s.changeover.stop = none
      ∧ s.portOf 0 = some 0 ∧ (s.port 0).jumper ≠ .none ∧ (s.port 0).monitor ≠ .fault ∧ (s.port 0).holder = none
      ∧ NextWrite s (.block 0 7 1 0) s.changeover.done 7 0 [17, 30] ∧ NextWrite v (.values 0 [(0, 55)]) 0 3 0 [55]
      ∧ NextWrite r (.restore 0 7 [17, 30]) 0 7 0 [17, 30]
      ∧ ((s.modPort 0 (fun p => { p with jumper := .none })).port 0).jumper = .none
      ∧ ((s.modPort 0 (fun p => { p with monitor := .fault })).port 0).monitor = .fault
      ∧ s.roster[(0 : Station)].releaseSettle ≠ 0 :=
  ⟨alone_of _ _ _ (by decide), by decide, by decide, by decide, by decide, by decide, by decide, by decide, by decide,
    by decide, by decide, by decide, by decide, by decide, ⟨by decide, by decide⟩,
    ⟨0, 55, param0, by decide⟩,
    ⟨by decide, by decide⟩, by decide⟩

/-- R145, R147: STOP lets a step ask for the release, whose settle then runs; RUN fails it with cause INTERLOCK. -/
theorem test_step_state :
    let s := working .applying (.block 0 7 1 0) .state
    let t := after (.stateReply 0 5 2 0) s
    (t.port 0).driven = .released ∧ (t.port 0).settleTimer = some 20 ∧ t.changeover.phase = .settling
      ∧ (t.link 0).inFlight = none ∧ (t.link 0).holder = some .changeover
      ∧ (after (.stateReply 0 5 1 0) s).changeover.failure.map (fun f => (f.cause, f.item))
          = some (.interlock, some (.block 7)) := by decide

theorem test_witness_WriteAckTaken :
    let s := released (slotted write0 (flying (.write 3 0 [55]) .tool (guarding line)))
    let r := slotted { write0 with readBack := true } (flying (.write 3 0 [55]) .tool (guarding line))
    Alone s 0 5 (.write 3 0 [55]) .tool ∧ (s.stn 0).state = .online ∧ (s.stn 0).slot = some write0
      ∧ write0.expired = false ∧ write0.acked + [(55 : Word)].length = write0.words.length ∧ write0.readBack = false
      ∧ write0.adjusted = false ∧ s.portOf 0 = some 0 ∧ (s.port 0).holder = some (.tool 0)
      ∧ (s.engp write0.port).state = .waiting ∧ (s.engp write0.port).attachment = write0.attachment
      ∧ (s.engp write0.port).awaited = some 0 ∧ (r.port 0).holder ≠ some (.tool 0)
      ∧ Alone r 0 5 (.write 3 0 [55]) .tool ∧ (r.stn 0).slot = some { write0 with readBack := true }
      ∧ write0.got = [] ∧ write0.acked + [(55 : Word)].length < { write0 with words := [55, 56] }.words.length :=
  ⟨alone_of _ _ _ (by decide), by decide, by decide, by decide, by decide, by decide, by decide, by decide, by decide,
    by decide, by decide, by decide, by decide, alone_of _ _ _ (by decide), by decide⟩

/-- R80: the ACK of a relay's frame sends the next one, from the first word not acknowledged. -/
theorem test_relay_goes_on :
    let op : ToolOp := { write0 with words := [55, 56, 57], count := 3 }
    let s := (slotted op (flying (.write 3 0 [55, 56]) .tool line)).modStn 0 (fun r => { r with wordsPerFrame := 2 })
    let t := after (.writeAck 0 5) s
    (t.link 0).inFlight.map (fun x => x.request) = some (.write 3 2 [57])
      ∧ (t.stn 0).slot.map (fun x => x.acked) = some 2 ∧ (t.stn 0).expected = 1 := by decide

/-- A step of the controller with its release, a WRITE in flight, on a work list. -/
def writingStep (work : List Step) (k done : Nat) (q : StationRequest) : State :=
  let s := (working .applying (.block 0 7 1 0) q).modPort 0 (fun p =>
    { p with driven := .released, holder := some .changeover, limitTimer := some 1000 })
  { s with changeover := { s.changeover with work := work, position := some k, done := done, phase := .writing } }

/-- An ACK with a frame or a value left, at the end of a step with a next one, at the end of the last one, and after a
failure from outside. -/
theorem test_witness_WriteAckTaken_step :
    let work : List Step := [.block 0 7 1 0, .values 0 [(0, 55)]]
    let s := writingStep work 0 0 (.write 7 0 [17, 30])
    let m := writingStep work 0 0 (.write 7 0 [17])
    let l := writingStep work 1 0 (.write 3 0 [55])
    let f := { s with changeover := { s.changeover with stop := some (failureOf (.block 0 7 1 0) 0 .expired none) } }
    Alone s 0 5 (.write 7 0 [17, 30]) .changeover ∧ (s.stn 0).state = .online ∧ s.changeover.state = .applying
      ∧ s.changeover.step = some (.block 0 7 1 0) ∧ s.changeover.stop = none
      ∧ WrittenWhole s (.block 0 7 1 0) (0 + [(17 : Word), 30].length) ∧ s.changeover.position = some 0
      ∧ s.changeover.work[0 + 1]? = some (.values 0 [(0, 55)]) ∧ Step.station (.values 0 [(0, 55)]) = 0
      ∧ NextWrite m (.block 0 7 1 0) (0 + [(17 : Word)].length) 7 1 [30]
      ∧ Alone l 0 5 (.write 3 0 [55]) .changeover ∧ l.changeover.step = some (.values 0 [(0, 55)])
      ∧ WrittenWhole l (.values 0 [(0, 55)]) (0 + 1) ∧ 1 + 1 = l.changeover.work.length
      ∧ l.changeover.work[0]? = some (.block 0 7 1 0) ∧ NextWrite l (.block 0 7 1 0) 0 7 0 [17, 30]
      ∧ f.changeover.stop = some (failureOf (.block 0 7 1 0) 0 .expired none) ∧ f.changeover.kind = some .changeover
      ∧ Alone m 0 5 (.write 7 0 [17]) .changeover :=
  ⟨alone_of _ _ _ (by decide), by decide, by decide, by decide, by decide, by unfold WrittenWhole; decide, by decide,
    by decide, by decide, ⟨by decide, by decide⟩, alone_of _ _ _ (by decide), by decide,
    by unfold WrittenWhole; decide, by decide, by decide, ⟨by decide, by decide⟩, by decide,
    by decide, alone_of _ _ _ (by decide)⟩

/-- R145, R148: the ACK of the last WRITE returns the release, and the first READ of the first step goes out. -/
theorem test_step_acked :
    let t := after (.writeAck 0 5) (writingStep [.block 0 7 1 0, .values 0 [(0, 55)]] 1 0 (.write 3 0 [55]))
    (t.port 0).driven = .asserted ∧ (t.port 0).holder = none ∧ t.changeover.state = .verifying
      ∧ t.changeover.position = some 0 ∧ (t.stn 0).expected = 1
      ∧ (t.link 0).inFlight.map (fun x => x.request) = some (.read 7 0 2) := by decide

/-- A DIRECT READ of two words by channel 1. -/
def direct : AccessWork :=
  { kind := .directRead, station := 0, block := 3, offset := 0, count := 2, image := none, got := [], result := none }

theorem test_witness_DataReplyTaken :
    let s := slotted read0 (flying (.read 3 0 2) .tool line)
    let b : ToolOp := { write0 with readBack := true, changes := [(0, 55)], phase := .readingBack, acked := 1 }
    let r := slotted b (flying (.read 3 0 1) .tool (tables line))
    let c := (flying (.read 3 0 2) (.access 0) line).setChan 0 { state := .running, work := some direct }
    Alone s 0 5 (.read 3 0 2) .tool ∧ (s.stn 0).state = .online ∧ (s.stn 0).slot = some read0
      ∧ read0.got.length + 2 = read0.count ∧ (s.engp read0.port).state = .waiting
      ∧ (s.engp read0.port).attachment = read0.attachment ∧ (s.engp read0.port).awaited = some 0
      ∧ (∀ p : Port, (s.port p).holder ≠ some (.tool 0)) ∧ Alone r 0 5 (.read 3 0 1) .tool ∧ (r.stn 0).slot = some b
      ∧ b.got.length + 1 = b.count ∧ b.got ++ [55] = b.words ∧ b.changes.Pairwise (fun x y => x.1 ≠ y.1)
      ∧ b.expired = false ∧ Alone c 0 5 (.read 3 0 2) (.access 0) ∧ (c.chan 0).work = some direct
      ∧ direct.got.length + 2 = direct.count :=
  ⟨alone_of _ _ _ (by decide), by decide, by decide, by decide, by decide, by decide, by decide, by decide,
    alone_of _ _ _ (by decide), by decide, by decide, by decide, by decide, by decide, alone_of _ _ _ (by decide), by decide⟩

/-- The last step of a verification, whose words have come. -/
def verifying (w : Step) (kind : ChKind) : State :=
  let s := flying (.read 7 0 2) .changeover (guarding (tables line))
  { s with changeover := { Changeover.idle with
      state := .verifying, kind := some kind, target := some 1, stations := [0], restoreEntry := some 0, work := [w],
      position := some 0, phase := .reading } }

/-- Reads that go on: a tool's, a relay's read-back, a channel's and a check's; and two steps of a verification, one with
a value left and one verified whole. -/
theorem test_witness_DataReplyTaken_goes_on :
    let s := slotted read0 (flying (.read 3 0 1) .tool line)
    let b : ToolOp := { write0 with readBack := true, count := 2, words := [55, 56], acked := 2, phase := .readingBack }
    let r := slotted b (flying (.read 3 0 1) .tool line)
    let c := (flying (.read 3 0 1) (.access 0) line).setChan 0 { state := .running, work := some direct }
    let k := flying (.read 7 0 1) .audit (inCheck .reading entry0)
    let v := flying (.read 7 0 1) .changeover (verifying (.block 0 7 1 0) .changeover)
    let w := verifying (.block 0 7 1 0) .changeover
    let w := { w with changeover := { w.changeover with work := [.block 0 7 1 0, .values 0 [(0, 55)]] } }
    Alone s 0 5 (.read 3 0 1) .tool ∧ (s.stn 0).state = .online ∧ (s.stn 0).slot = some read0 ∧ read0.write = false
      ∧ read0.got.length + 1 < read0.count ∧ Alone r 0 5 (.read 3 0 1) .tool ∧ (r.stn 0).slot = some b
      ∧ b.write = true ∧ b.expired = false ∧ b.got.length + 1 < b.count
      ∧ Alone c 0 5 (.read 3 0 1) (.access 0) ∧ (c.chan 0).work = some direct ∧ direct.got.length + 1 < direct.count
      ∧ Alone k 0 5 (.read 7 0 1) .audit ∧ k.sched.check.map (fun x => (x.station, x.got)) = some (0, [])
      ∧ Alone v 0 5 (.read 7 0 1) .changeover ∧ v.changeover.step = some (.block 0 7 1 0)
      ∧ NextWrite v (.block 0 7 1 0) (0 + 1) 7 1 [30]
      ∧ Alone w 0 5 (.read 7 0 2) .changeover ∧ w.changeover.work[0 + 1]? = some (.values 0 [(0, 55)])
      ∧ WrittenWhole w (.block 0 7 1 0) (0 + 2) ∧ imagePrint w.images 0 = some (fingerprint [17, 30])
      ∧ (∀ p : Port, (w.port p).holder ≠ some .changeover) ∧ NextWrite w (.values 0 [(0, 55)]) 0 3 0 [55] :=
  ⟨alone_of _ _ _ (by decide), by decide, by decide, by decide, by decide, alone_of _ _ _ (by decide), by decide,
    by decide, by decide, by decide, alone_of _ _ _ (by decide), by decide, by decide, alone_of _ _ _ (by decide),
    by decide, alone_of _ _ _ (by decide), by decide, ⟨by decide, by decide⟩, alone_of _ _ _ (by decide), by decide,
    by unfold WrittenWhole; decide, by decide, by decide, ⟨0, 55, param0, by decide⟩⟩

/-- R71, R120: the verified relay of a TUNABLE word moves the expectation of its entry (R116: 55 + 30, 55 + 2 · 30). -/
theorem test_relay_expectation :
    let b : ToolOp := { write0 with readBack := true, changes := [(0, 55)], phase := .readingBack, acked := 1 }
    let s := slotted b (flying (.read 3 0 1) .tool (guarding (tables line)))
    let e : AuditEntry := { entry0 with block := 3, cls := some .tunable, state := .matched, expected := some (80, 110) }
    (after (.dataReply 0 5 [55]) { s with audit := [e, entry0] }).audit = [{ e with expected := some (85, 115) }, entry0]
    := by decide

/-- A relay at its read-back, at its first WRITE and at its second one; a capture of two words by channel 1. -/
theorem test_witness_RelaysAndCapturesEnd :
    let b : ToolOp := { write0 with readBack := true, phase := .readingBack, acked := 1 }
    let r := released (slotted b (flying (.read 3 0 1) .tool (guarding (tables line))))
    let f := released (slotted write0 (flying (.write 3 0 [55]) .tool (guarding line)))
    let l := slotted { write0 with acked := 16 } (flying (.write 3 16 [55]) .tool (guarding line))
    let w : AccessWork := { direct with kind := .capture, image := some 0 }
    let im : Image := { image0 with capture := some 0 }
    let c := { (flying (.read 3 0 2) (.access 0) line).setChan 0 { state := .running, work := some w } with images := [im] }
    Alone r 0 5 (.read 3 0 1) .tool ∧ (r.stn 0).state = .online ∧ (r.stn 0).slot = some b ∧ b.write = true
      ∧ b.expired = false ∧ (r.engp b.port).state = .waiting ∧ (r.engp b.port).attachment = b.attachment
      ∧ (r.engp b.port).awaited = some 0 ∧ b.got.length + 1 = b.count ∧ (b.got ++ [54]).take 0 = b.words.take 0
      ∧ b.words[0]? = some 55 ∧ (b.got ++ [54])[0]? = some 54 ∧ (55 : Word) ≠ 54
      ∧ Alone f 0 5 (.write 3 0 [55]) .tool ∧ rejectOf 2 = some .writeProtected ∧ write0.acked = 0
      ∧ (f.stn 0).missed < 2 ∧ Alone l 0 5 (.write 3 16 [55]) .tool ∧ 0 < 16
      ∧ Alone c 0 5 (.read 3 0 2) (.access 0) ∧ (c.chan 0).work = some w ∧ w.got.length + 2 = w.count
      ∧ (∀ x ∈ c.images, x.id = 0 → x.capture = some 0 ∧ x.words = [] ∧ x.length = w.count) :=
  ⟨alone_of _ _ _ (by decide), by decide, by decide, by decide, by decide, by decide, by decide, by decide, by decide,
    by decide, by decide, by decide, by decide, alone_of _ _ _ (by decide), by decide, by decide, by decide,
    alone_of _ _ _ (by decide), by decide, alone_of _ _ _ (by decide), by decide⟩

/-- R81, R83, R84: a read-back of 54 where 55 was written; R86: a REJECT PROTECTED of the first WRITE. -/
theorem test_relay_trouble :
    let b : ToolOp := { write0 with readBack := true, phase := .readingBack, acked := 1 }
    let t := after (.dataReply 0 5 [54]) (released (slotted b (flying (.read 3 0 1) .tool (guarding (tables line)))))
    let f := after (.rejectReply 0 5 2) (released (slotted write0 (flying (.write 3 0 [55]) .tool (guarding line))))
    (t.engp 0).tx.map (fun x => x.reply) = [.verifyFailed 3 0 55 54]
      ∧ t.events.map (fun x => x.detail) = [.restarted .power, .relayTrouble (.verifyFailed 0 55 54) 0 3]
      ∧ t.sched.sweeps.map (fun q => q.station) = [0] ∧ (t.port 0).driven = .asserted
      ∧ (f.engp 0).tx.map (fun x => x.reply) = [.failed 3 (.reject .writeProtected)]
      ∧ f.events = [.restarted .power] ∧ f.sched.sweeps = [] := by decide

/-- Relays whose release has expired with a WRITE and with a read-back in flight. -/
theorem test_witness_RelaysAndCapturesEnd_expired :
    let op : ToolOp := { write0 with expired := true, words := [55, 56], count := 2 }
    let s := slotted op (flying (.write 3 0 [55]) .tool (guarding line))
    let r := slotted { op with acked := 2 } (flying (.read 3 0 2) .tool (guarding line))
    Alone s 0 5 (.write 3 0 [55]) .tool ∧ (s.stn 0).slot = some op ∧ op.write = true ∧ op.expired = true
      ∧ (s.engp op.port).state = .waiting ∧ (s.engp op.port).awaited = some 0 ∧ (s.stn 0).missed < 2
      ∧ Alone r 0 5 (.read 3 0 2) .tool ∧ (r.stn 0).slot = some { op with acked := 2 } :=
  ⟨alone_of _ _ _ (by decide), by decide, by decide, by decide, by decide, by decide, by decide,
    alone_of _ _ _ (by decide), by decide⟩

/-- R89: the ACK that comes after the release has expired ends the relay UNCONFIRMED with cause EXPIRED and one word. -/
theorem test_relay_expired :
    let op : ToolOp := { write0 with expired := true, words := [55, 56], count := 2 }
    let t := after (.writeAck 0 5) (slotted op (flying (.write 3 0 [55]) .tool (guarding line)))
    (t.engp 0).tx.map (fun x => x.reply) = [.unconfirmed 3 .expired 1] ∧ (t.stn 0).expected = 1
      ∧ (t.stn 0).slot = none := by decide

/-- R114: a capture completes its image with the fingerprint, or leaves it open and empty. -/
theorem test_capture :
    let w : AccessWork := { direct with kind := .capture, image := some 0 }
    let c := { (flying (.read 3 0 2) (.access 0) line).setChan 0 { state := .running, work := some w } with
                images := [{ image0 with capture := some 0 }] }
    (after (.dataReply 0 5 [17, 30]) c).images = [image1] ∧ (after (.rejectReply 0 5 1) c).images = [image0]
      ∧ ((after (.dataReply 0 5 [17, 30]) c).chan 0).work.bind (fun x => x.result) = some .complete := by decide

/-- A work list whose last step is in VERIFYING, with the audit entries of a held station SUSPENDED. -/
def lastRead (kind : ChKind) (q : StationRequest) (work : List Step) (k : Nat) (e : AuditEntry) : State :=
  let s := verifying (.block 0 7 1 0) kind
  { flying q .changeover s with
    audit := [e, { entry0 with block := 3, cls := some .tunable, state := .suspended }]
    activeFormat := if kind = .changeover then 0 else 1
    changeover := { s.changeover with work := work, position := some k } }

theorem test_witness_VerifiedOperationsEnd :
    let work : List Step := [.block 0 7 1 0, .values 0 [(0, 55)]]
    let s := lastRead .changeover (.read 3 0 1) work 1 entry0
    let b := lastRead .changeover (.read 7 0 2) [.block 0 7 1 0] 0 entry0
    let v := lastRead .revert (.read 3 0 1) work 1 entry0
    let format : AuditEntry := { entry0 with cls := some .format, image := none, resolved := some 0 }
    let r := lastRead .restore (.read 7 0 2) [.restore 0 7 [17, 30]] 0 format
    Alone s 0 5 (.read 3 0 1) .changeover ∧ (s.stn 0).state = .online ∧ s.changeover.state = .verifying
      ∧ s.changeover.position = some 1 ∧ 1 + 1 = s.changeover.work.length
      ∧ s.changeover.work[1]? = some (.values 0 [(0, 55)]) ∧ Step.station (.values 0 [(0, 55)]) = 0
      ∧ s.changeover.done + 1 = [(0, (55 : Int))].length ∧ tableGet s.params 0 = some param0
      ∧ [(55 : Word)] = param0.encode 55 ∧ s.changeover.kind = some .changeover ∧ s.changeover.target = some 1
      ∧ tableGet s.recipes 1 = some recipe1 ∧ (∀ x, (0, x) ∈ recipe1.values → x = 55) ∧ s.audit[0]? = some entry0
      ∧ s.sched.check = none
      ∧ Alone b 0 5 (.read 7 0 2) .changeover ∧ b.changeover.done = b.changeover.got.length
      ∧ b.changeover.got.length + 2 = (imageWords b.images 0).length
      ∧ imagePrint b.images 0 = some (fingerprint (b.changeover.got ++ [17, 30]))
      ∧ Alone v 0 5 (.read 3 0 1) .changeover ∧ v.changeover.kind = some .revert ∧ v.changeover.target = some 1
      ∧ Alone r 0 5 (.read 7 0 2) .changeover ∧ r.changeover.kind = some .restore
      ∧ r.changeover.work[0]? = some (.restore 0 7 [17, 30]) ∧ r.changeover.restoreEntry = some 0
      ∧ r.audit[0]? = some format ∧ r.changeover.got ++ [17, 30] = [17, 30] ∧ format.station ∈ r.changeover.stations
      ∧ resolvedImage r.recipes r.activeFormat 0 7 = some 0 :=
  ⟨alone_of _ _ _ (by decide), by decide, by decide, by decide, by decide, by decide, by decide, by decide, by decide,
    by decide, by decide, by decide, by decide, (by intro x h; simpa [recipe1] using h), by decide, by decide,
    alone_of _ _ _ (by decide), by decide, by decide, by decide, alone_of _ _ _ (by decide), by decide, by decide,
    alone_of _ _ _ (by decide), by decide⟩

/-- R149: the last value read of `test_witness_VerifiedOperationsEnd` commits: baseline, current value and the TUNABLE
expectation are the recipe's (R116: 55 + 30, 55 + 2 · 30), and a SUSPENDED entry is UNCHECKED. -/
theorem test_commit :
    let work : List Step := [.block 0 7 1 0, .values 0 [(0, 55)]]
    let t := after (.dataReply 0 5 [55]) (lastRead .changeover (.read 3 0 1) work 1 { entry0 with state := .suspended })
    t.activeFormat = 1 ∧ (t.stn 0).format = .fmt 1 ∧ t.changeover.state = .idle
      ∧ (tableGet t.params 0).map (fun p => (p.base, p.current)) = some (55, 55)
      ∧ t.audit.map (fun e => (e.state, e.expected)) = [(.unchecked, some (47, 77)), (.unchecked, some (85, 115))]
      ∧ t.events.map (fun e => e.detail) = [.restarted .power, .operationDone .changeover .committed 1 none] := by decide

/-- R152: a revert takes in the values it wrote, and the active format stays. -/
theorem test_revert :
    let work : List Step := [.block 0 7 1 0, .values 0 [(0, 55)]]
    let t := after (.dataReply 0 5 [55]) (lastRead .revert (.read 3 0 1) work 1 entry0)
    t.activeFormat = 1 ∧ (t.stn 0).format = .fmt 1 ∧ t.changeover.state = .idle
      ∧ (tableGet t.params 0).map (fun p => (p.base, p.current)) = some (55, 55)
      ∧ t.events.map (fun e => e.detail) = [.restarted .power, .operationDone .revert .reverted 1 none] := by decide

theorem test_witness_SumReplyTaken : Alone (inCheck .summing entry0) 0 5 (.sum 7 2) .audit
    ∧ ((inCheck .summing entry0).stn 0).state = .online ∧ (47 : Word).toNat < 65521 ∧ (65520 : Word).toNat < 65521
    ∧ (inCheck .summing entry0).audit[0]? = some entry0 ∧ entry0.expected = some (47, 77)
    ∧ ((47, 77) : Fingerprint) = ((47 : Word).toNat, (77 : Word).toNat)
    ∧ ((47, 77) : Fingerprint) ≠ ((47 : Word).toNat, (78 : Word).toNat)
    ∧ (inCheck .summing entry0).sched.paceTimer ≠ none ∧ imagePrint [image1] 0 = some (47, 77)
    ∧ Alone (inCheck .reading entry0) 0 5 (.read 7 0 2) .audit
    ∧ Alone (inCheck .confirming { entry0 with state := .drift }) 0 5 (.read 7 0 2) .audit
    ∧ imageWords (inCheck .reading entry0).images 0 = [17, 30] ∧ entry0.cls = some .fixed ∧ entry0.image = some 0
    ∧ fingerprint [17, 30] = (47, 77) ∧ fingerprint [17, 31] ≠ (47, 77) ∧ rejectOf 4 = some .unknown
    ∧ ([17, 31] : List Word).take 1 = [17, 30].take 1 ∧ ((inCheck .reading entry0).stn 0).missed < 2 :=
  ⟨alone_of _ _ _ (by decide), by decide, by decide, by decide, by decide, by decide, by decide, by decide, by decide,
    by decide, alone_of _ _ _ (by decide), alone_of _ _ _ (by decide), by decide⟩

/-- R126 to R129: the drift record of a difference at offset 1, a confirming read that finds none, a drifted entry that
keeps its state, and a timeout. -/
theorem test_check_ends :
    let t := after (.dataReply 0 5 [17, 31]) (inCheck .reading entry0)
    let u := after (.dataReply 0 5 [17, 30]) (inCheck .confirming entry0)
    let d := after (.dataReply 0 5 [17, 31]) (inCheck .confirming { entry0 with state := .drift })
    t.audit.map (fun e => (e.state, e.drift))
        = [(.drift, some { offset := 1, expected := 30, actual := 31, seen := (48, 79), time := 0 })]
      ∧ t.events.map (fun x => x.detail) = [.restarted .power, .drift 0] ∧ (t.stn 0).sumUnreliable = false
      ∧ u.audit.map (fun e => (e.state, e.lastOutcome)) = [(.matched, some .matched)] ∧ (u.stn 0).sumUnreliable = true
      ∧ d.audit.map (fun e => (e.state, e.lastOutcome, e.drift)) = [(.drift, some .differ, none)]
      ∧ d.events = [.restarted .power]
      ∧ (after (.replyTimeout 0) (inCheck .summing entry0)).audit.map (fun e => e.state) = [.unreachable] := by decide

/-- R119: a check keeps its image over a new resolution. -/
theorem test_check_keeps_image :
    let e := { entry0 with cls := some .format, image := none, resolved := some 1, expected := some (0, 0), state := .drift }
    let s := inCheck .reading e
    let s := { s with sched := { s.sched with check := s.sched.check.map (fun c => { c with kept := some 0 }) } }
    (after (.dataReply 0 5 [17, 30]) s).audit.map (fun e => (e.lastOutcome, e.expected))
      = [(some .matched, some (0, 0))] := by decide

theorem test_witness_RejectsAndTimeouts :
    let s := flying .state .presence line
    let r := slotted read0 (flying (.read 3 0 2) .tool line)
    let w := flying (.write 3 0 [55]) .tool line
    let m := s.modStn 0 (fun x => { x with missed := 2 })
    s.power = .running ∧ (s.stn 0).state = .online
      ∧ (s.link 0).inFlight = some { seq := 5, request := .state, owner := some .presence, timeout := 40 }
      ∧ rejectOf 4 = some .unknown ∧ Alone s 0 5 .state .presence ∧ Alone r 0 5 (.read 3 0 2) .tool
      ∧ (r.stn 0).slot = some read0 ∧ (∀ p : Port, (r.port p).holder ≠ some (.tool 0)) ∧ (w.stn 0).missed < 2
      ∧ (w.link 0).inFlight = some { seq := 5, request := .write 3 0 [55], owner := some .tool, timeout := 40 }
      ∧ Alone m 0 5 .state .presence ∧ (m.stn 0).missed = 2 ∧ 0 ∉ m.changeover.stations ∧ PortMapOk m.portMap
      ∧ ReleasesOk m ∧ (∀ (x : StationReply) (tr : Transaction), parseReply 0x85 [1] = some x →
          (s.link 0).inFlight = some tr → tr.seq = 5 → answers tr.request x = true →
          wellFormedReply tr.request x = false) :=
  ⟨by decide, by decide, by decide, by decide, alone_of _ _ _ (by decide), alone_of _ _ _ (by decide), by decide,
    by decide, by decide, by decide, alone_of _ _ _ (by decide), by decide, by decide, line_map_ok,
    asserted_releases_ok _ (by decide), (by
      intro x tr h
      rw [show parseReply 0x85 [1] = none by decide] at h
      cases h)⟩

/-- A link with waiters: an abandoned transaction, and a presence poll, in flight. -/
def contended (owner : Option LinkUser) (waiters : List LinkUser) : State :=
  ((line.setChan 0 { state := .waiting, work := some { direct with block := 4 } }).setChan 1
    { state := .waiting, work := some direct }).modLink 0 (fun l =>
      { l with holder := owner, waiters := waiters,
               inFlight := some { seq := 5, request := .state, owner := owner, timeout := 40 } })

theorem test_witness_RejectsAndTimeouts_waiters :
    let s := contended none [.audit, .access 1, .access 0, .presence]
    let p := contended (some .presence) [.audit, .access 1, .access 0]
    s.power = .running ∧ (s.stn 0).state = .online ∧ (s.link 0).holder = none
      ∧ (s.link 0).inFlight = some { seq := 5, request := .state, owner := none, timeout := 40 }
      ∧ (s.link 0).waiters = [.audit] ++ .access 1 :: [.access 0, .presence] ∧ (s.stn 0).missed < 2
      ∧ (p.link 0).holder = some .presence ∧ LinkUser.access 1 ≠ .presence ∧ LinkUser.presence ∉ [LinkUser.audit]
      ∧ LinkUser.presence ∉ [LinkUser.access 0] ∧ FirstRequest s 0 (.access 1) (.read 3 0 2) :=
  ⟨by decide, by decide, by decide, by decide, by decide, by decide, by decide, by decide, by decide, by decide,
    direct, by decide⟩

/-- R19, R20: the first placed of two ACCESS waiters takes the link before an audit check that was placed earlier. -/
theorem test_link_passes :
    let s := contended none [.audit, .access 1, .access 0, .presence]
    let t := after (.replyTimeout 0) s
    (t.link 0).holder = some (.access 1) ∧ (t.link 0).waiters = [.audit, .access 0, .presence]
      ∧ (t.link 0).inFlight.map (fun x => x.request) = some (.read 3 0 2) := by decide

theorem test_witness_InhibitPortEvents :
    let op := { write0 with phase := .settling, writeSent := false }
    let s := (released (slotted op (guarding line))).modLink 0 (fun l => { l with holder := some .tool })
    let f := released (slotted write0 (flying (.write 3 0 [55]) .tool (guarding line)))
    let m := line.modPort 0 (fun p => { p with monitor := .agree })
    let d := line.modPort 0 (fun p => { p with monitor := .disagree 10 })
    s.power = .running ∧ (s.port 0).settleTimer = some 20 ∧ (s.port 0).holder = some (.tool 0)
      ∧ (s.stn 0).slot = some op ∧ op.phase = .settling ∧ op.acked = 0 ∧ (s.port 0).limitTimer = some 1500
      ∧ s.portOf 0 = some 0 ∧ op.write = true ∧ (s.link 0).inFlight = none ∧ (s.link 0).waiters = []
      ∧ (s.link 0).holder = some .tool ∧ (s.engp op.port).state = .waiting
      ∧ (s.engp op.port).attachment = op.attachment ∧ (s.engp op.port).awaited = some 0
      ∧ (f.link 0).inFlight = some { seq := 5, request := .write 3 0 [55], owner := some .tool, timeout := 40 }
      ∧ m.portMap[0] = some 0 ∧ (m.port 0).jumper = .high ∧ (m.port 0).driven = .asserted ∧ (m.port 0).monitor = .agree
      ∧ (m.port 1).monitor ≠ .fault ∧ m.portMap[1] = none ∧ (d.port 0).jumper = .high
      ∧ ((m.modPort 0 (fun p => { p with monitor := .fault })).port 0).monitor = .fault
      ∧ (d.port 0).monitor = .disagree 10 ∧ (d.link 0).holder = none ∧ 0 ∉ d.changeover.stations := by decide

/-- The controller's step whose port becomes ready. -/
theorem test_witness_InhibitPortEvents_step :
    let s := writingStep [.values 0 [(0, 55)]] 0 0 .state
    let s := { (s.modPort 0 (fun p => { p with settleTimer := some 0 })) with
      changeover := { s.changeover with phase := .settling } }
    s.power = .running ∧ (s.port 0).settleTimer = some 0 ∧ (s.port 0).holder = some .changeover
      ∧ s.changeover.step = some (.values 0 [(0, 55)]) ∧ Step.station (.values 0 [(0, 55)]) = 0
      ∧ s.changeover.phase = .settling ∧ NextWrite s (.values 0 [(0, 55)]) s.changeover.done 3 0 [55] :=
  ⟨by decide, by decide, by decide, by decide, by decide, by decide, 0, 55, param0, by decide⟩

/-- R24, R30: a LOW port asserted agrees at a low level, and released at a high one; a difference already timed goes on,
and levels that agree again drop it. -/
theorem test_monitor :
    let low (d : Driven) (m : Monitor) : State := line.modPort 0 (fun p => { p with jumper := .low, driven := d, monitor := m })
    let seen (s : State) (level : Bool) : Monitor := ((after (.inhibitSenseChange 0 level) s).port 0).monitor
    seen (low .asserted (.disagree 4)) false = .agree ∧ seen (low .released .agree) false = .disagree 0
      ∧ seen (low .asserted (.disagree 4)) true = .disagree 4 ∧ seen (low .released .idle) true = .agree
      ∧ seen (low .asserted .fault) false = .fault := by decide

/-- A FAULT while a relay, a check and a step of the controller hold the link, and while a read waits for it. -/
theorem test_witness_InhibitPortEvents_fault :
    let d (s : State) : State := s.modPort 0 (fun p => { p with monitor := .disagree 10 })
    let r := d (slotted write0 (flying (.write 3 0 [55]) .tool (guarding line)))
    let w := d ((slotted read0 (flying .state .presence (guarding line))).modLink 0 (fun l => { l with waiters := [.tool] }))
    let k := d (inCheck .summing entry0)
    let c := d (working .applying (.block 0 7 1 0) .state)
    let q := d (line.modStn 0 (fun r => { r with state := .quarantined, reason := some .identity }))
    r.power = .running ∧ r.portMap[0] = some 0 ∧ r.portOf 0 = some 0 ∧ (r.stn 0).state = .online
      ∧ (r.port 0).monitor = .disagree 10 ∧ (r.link 0).holder = some .tool ∧ (r.link 0).waiters = []
      ∧ 0 ∉ r.changeover.stations ∧ (r.stn 0).slot = some write0 ∧ (r.engp 0).state = .waiting
      ∧ write0.write = true ∧ write0.writeSent = true ∧ (w.link 0).waiters = [.tool]
      ∧ (w.link 0).inFlight = some { seq := 5, request := .state, owner := some .presence, timeout := 40 }
      ∧ (w.link 0).holder = some .presence ∧ read0.write = false ∧ (w.stn 0).slot = some read0
      ∧ (k.link 0).holder = some .audit ∧ k.sched.check.map (fun x => x.station) = some 0 ∧ k.sched.paceTimer ≠ none
      ∧ (c.link 0).holder = some .changeover ∧ 0 ∈ c.changeover.stations ∧ c.changeover.state = .applying
      ∧ c.changeover.step = some (.block 0 7 1 0) ∧ c.changeover.kind = some .changeover ∧ c.changeover.stop = none
      ∧ (q.stn 0).state = .quarantined ∧ (q.stn 0).reason = some .identity ∧ (q.port 0).monitor = .disagree 10 := by
  decide

/-- R90: a relay that has sent a WRITE ends UNCONFIRMED with cause QUARANTINE, and its transaction keeps the link. -/
theorem test_fault_ends_relay :
    let s := slotted write0 (flying (.write 3 0 [55]) .tool (guarding line))
    let t := after (.inhibitFault 0) (s.modPort 0 (fun p => { p with monitor := .disagree 10 }))
    (t.engp 0).tx.map (fun x => x.reply) = [.unconfirmed 3 .quarantine 0] ∧ (t.link 0).holder = none
      ∧ (t.link 0).inFlight = some { seq := 5, request := .write 3 0 [55], owner := none, timeout := 40 } := by decide

/-- A changeover at its first step, with KEY about to leave MAINT. -/
def keyLeaving : State :=
  let s := (guarding (tables line)).setInput .key { raw := false, accepted := true, hold := 32, checkTime := 32, mode := .none }
  { s with changeover := { Changeover.idle with
      state := .applying, kind := some .changeover, target := some 1, stations := [0], work := [.block 0 7 1 0],
      position := some 0 } }

theorem test_witness_InputsFollowed : (bouncing 0).power = .running
    ∧ ((bouncing 0).inputs.get .lineRun).raw ≠ false ∧ (bouncing 0).changeover.state = .idle
    ∧ ((bouncing 0).inputs.get .lineRun).checkTime ≠ 0
    ∧ (let s := State.reset.setInput .cover { raw := false, accepted := false, hold := 9, checkTime := 0, mode := .both }
       (s.inputs.get .cover).raw ≠ true ∧ (s.inputs.get .cover).checkTime = 0 ∧ true ≠ (s.inputs.get .cover).accepted
         ∧ (s.inputs.get .cover).mode = .both)
    ∧ ((bouncing 0).inputs.get .lineRun).raw ≠ ((bouncing 0).inputs.get .lineRun).accepted
    ∧ keyLeaving.power = .running ∧ keyLeaving.inputs.key.accepted = true ∧ keyLeaving.inputs.key.raw = false
    ∧ keyLeaving.inputs.key.mode = .none ∧ keyLeaving.changeover.state = .applying
    ∧ keyLeaving.changeover.kind = some .changeover ∧ keyLeaving.changeover.step = some (.block 0 7 1 0)
    ∧ (keyLeaving.link 0).inFlight = none ∧ (keyLeaving.link 0).waiters = [] := by decide

/-- R35, R147 (log entry 14): INPUT_CHANGE stands before the OPERATION_DONE of the operation it fails. -/
theorem test_key_leaves :
    let s := keyLeaving.setInput .key { keyLeaving.inputs.key with mode := .both }
    (after (.inputDebounceExpiry .key) s).events.map (fun e => e.detail.kind) = [.restarted, .inputChange, .operationDone]
    := by decide

theorem test_witness_AuditPaces :
    let s := guarding (tables line)
    let s := { s with sched := { s.sched with paceTimer := some 0 } }
    s.power = .running ∧ s.stage = .guarding ∧ s.sched.check = none ∧ s.sched.sweeps = [] ∧ s.sched.paceTimer ≠ none
      ∧ s.audit[0]? = some entry0 ∧ entry0.state = .unchecked ∧ entry0.cls = some .fixed ∧ (s.stn 0).state = .online
      ∧ (∀ c, s.sched.cursor = some c → c < 0) ∧ entry0.readMode = false ∧ (s.stn 0).sumUnreliable = false
      ∧ (s.link 0).holder = none ∧ (s.link 0).waiters = [] ∧ (s.link 0).inFlight = none
      ∧ { s with sched := { s.sched with cursor := some 0 } }.sched.cursor = some 0
      ∧ { s with audit := [] }.audit[0]? = none
      ∧ { s with sched := { s.sched with sweeps := queueSweep 0 [] } }.sched.sweeps
          = { station := 0, started := false, again := false, taken := none } :: []
      ∧ ({ entry0 with readMode := true } : AuditEntry).readMode = true
      ∧ ((flying .state .presence s).link 0).holder ≠ none := by
  refine ⟨by decide, by decide, by decide, by decide, by decide, by decide, by decide, by decide, by decide, ?_, by decide⟩
  intro c h
  cases h

/-- R127: a READ entry is read from its first word; a check of a station whose link is held waits for it. -/
theorem test_check_begins :
    let s (e : AuditEntry) : State :=
      { guarding (tables line) with audit := [e], sched := { Scheduler.stopped with paceTimer := some 0 } }
    let r := after .auditPaceExpiry (s { entry0 with readMode := true })
    let w := after .auditPaceExpiry (flying .state .presence (s entry0))
    (r.link 0).inFlight.map (fun x => x.request) = some (.read 7 0 2) ∧ (w.link 0).waiters = [.audit]
      ∧ w.sched.check.map (fun c => c.phase) = some .waiting := by decide

/-- R124: a waiting sweep is chosen first and leaves the cursor; a sweep that is done leaves the queue, and with its again
flag set begins again. -/
theorem test_sweep_first :
    let s (q : Sweep) := { guarding (tables line) with sched := { Scheduler.stopped with paceTimer := some 0, sweeps := [q] } }
    let q : Sweep := { station := 0, started := false, again := false, taken := none }
    (after .auditPaceExpiry (s q)).sched.check.map (fun c => (c.entry, c.bySweep)) = some (0, true)
      ∧ (after .auditPaceExpiry (s q)).sched.sweeps = [{ q with started := true }]
      ∧ (after .auditPaceExpiry (s q)).sched.cursor = none
      ∧ (after .auditPaceExpiry (s { q with started := true, taken := some 0 })).sched.sweeps = []
      ∧ (after .auditPaceExpiry (s { q with started := true, taken := some 0 })).sched.cursor = some 0
      ∧ (after .auditPaceExpiry (s { q with started := true, again := true, taken := some 0 })).sched.sweeps
          = [{ q with started := true }] := by decide

theorem test_witness_StrictVerdict : param0.clamp = false ∧ (61 : Int) ≠ param0.current
    ∧ min (param0.base + param0.high) param0.hmax < 61 ∧ param0.current + 5 < 56 ∧ ¬ (param0.grain : Int) ∣ 52 - param0.base
    ∧ (param0.grain : Int) ∣ 55 - param0.base ∧ { param0 with step := none }.step = none := by decide

theorem test_witness_BudgetTest : (dwell 88 (some (7001, 2))).budget = some (2, 10)
    ∧ (dwell 88 (some (7001, 2))).window = some (7001, 2) ∧ 7600 < 7001 + 60 * 10 ∧ 2 ≤ 2
    ∧ { dwell 88 (some (7001, 2)) with budget := none }.verdict 90 7600 = .pass 90
    ∧ { dwell 88 (some (7001, 2)) with budget := none }.verdict 120 7600 = .refused .band := by decide

theorem test_witness_ClampLandsInTheTargetWindow : (torque 328).clamp = true ∧ 1 ≤ (torque 328).grain
    ∧ (torque 328).hmin ≤ (torque 328).base ∧ (torque 328).base ≤ (torque 328).hmax
    ∧ max ((torque 328).base - (torque 328).low) (torque 328).hmin ≤ (torque 328).current
    ∧ (torque 328).current ≤ min ((torque 328).base + (torque 328).high) (torque 328).hmax
    ∧ ((torque 328).grain : Int) ∣ (torque 328).current - (torque 328).base ∧ (320 : Int) ≠ (torque 328).current := by
  decide

theorem test_witness_ValuesEncodeAndDecode : kindMin true true ≤ -135000 ∧ (-135000 : Int) ≤ kindMax true true
    ∧ registration.signed = true ∧ 32768 ≤ (65533 : Word).toNat ∧ (32767 : Word).toNat ≤ 32767
    ∧ registration.decode 65533 61608 = registration.current := by decide

/-- A line that meets the three invariants, with one of each table loaded. -/
theorem test_witness_SettingsInvariant : SettingsOk (tables line) ∧ ∃ t, step (tables line) = .next t := by
  refine ⟨⟨by decide, (by intro h; cases h), by decide, by decide, line_map_ok, ?_, ?_, ?_, ?_⟩, ⟨_, rfl⟩⟩
  · simp [WindowsOk, tables, Config.windowCapacity]
  · simp [ParamsOk, tables, Config.parameterCapacity]
  · simp [ImagesOk, tables, Stacked, image1, image0, reservedWords, Config.imageCapacity, Config.storeWords]
  · simp [AuditOk, tables, Config.auditCapacity]

theorem test_witness_EventQueueInvariant : EventsOk [Event.restarted .power] ∧ ∃ t, step line = .next t :=
  ⟨⟨by decide, by decide⟩, ⟨_, rfl⟩⟩

theorem test_witness_ReleaseInvariant : PortMapOk line.portMap ∧ ReleasesOk line ∧ ∃ t, step line = .next t :=
  ⟨line_map_ok, asserted_releases_ok _ (by decide), ⟨_, rfl⟩⟩

end Sys2Proof.Tests
end

section
/-! SUPPORT. The parameter guard's arithmetic and words (R58 to R63): what each function of one parameter's judgement
answers, case by case, then the three statements about a STRICT request, a CLAMP request, and decoding with encoding. -/

namespace Sys2Proof.Machine

open Sys2Proof

/-! ### The verdict and the budget test -/

section Verdicts

variable {p : Param} {r : Int} {now : Nat}

theorem verdict_current (h : r = p.current) : p.verdict r now = .unchanged := if_pos h

theorem verdict_of_strict (hp : p.clamp = false) (hr : r ≠ p.current) :
    p.verdict r now = p.budgeted now (p.strictVerdict r) := by
  simp [Param.verdict, hr, hp]

theorem verdict_of_clamp (hp : p.clamp = true) (hr : r ≠ p.current) :
    p.verdict r now = p.budgeted now (p.clampVerdict r) := by
  simp [Param.verdict, hr, hp]

@[simp] theorem budgeted_refused (why : Policy) : p.budgeted now (.refused why) = .refused why := rfl

@[simp] theorem budgeted_held : p.budgeted now .held = .held := rfl

@[simp] theorem budgeted_pass (a : Int) :
    p.budgeted now (.pass a) = if p.spent now = true then .refused .budget else .pass a := rfl

@[simp] theorem budgeted_clamped (a : Int) :
    p.budgeted now (.clamped a) = if p.spent now = true then .refused .budget else .clamped a := rfl

/-- The budget test adds no reason of its own but BUDGET. -/
theorem refused_of_budgeted_refused {v : Verdict} {why : Policy} (h : p.budgeted now v = .refused why) :
    why = .budget ∨ v = .refused why := by
  cases v with
  | unchanged => cases h
  | held => cases h
  | refused q => exact Or.inr h
  | pass a | clamped a =>
    left
    simp only [budgeted_pass, budgeted_clamped] at h
    split at h <;> cases h
    rfl

end Verdicts

/-! ### STRICT (R61) -/

section Strict

variable {p : Param} {r : Int}

theorem strictVerdict_band (h : r < p.lo ∨ p.hi < r) : p.strictVerdict r = .refused .band := if_pos h

/-- Inside the band the step window refuses what lies farther from the current value than the step limit. -/
theorem outside_step_window_iff (hlo : p.lo ≤ r) (hhi : r ≤ p.hi) :
    (r < p.slo ∨ p.shi < r) ↔ ∃ n, p.step = some n ∧ (r < p.current - n ∨ p.current + n < r) := by
  cases hs : p.step with
  | none => simp [Param.slo, Param.shi, hs, hlo, hhi]
  | some n => simp [Param.slo, Param.shi, hs]

theorem strictVerdict_step (hlo : p.lo ≤ r) (hhi : r ≤ p.hi) (h : r < p.slo ∨ p.shi < r) :
    p.strictVerdict r = .refused .step := by
  rw [Param.strictVerdict, if_neg (by omega), if_pos h]

theorem strictVerdict_grain (hlo : p.lo ≤ r) (hhi : r ≤ p.hi) (hs : ¬ (r < p.slo ∨ p.shi < r))
    (h : ¬ (p.grain : Int) ∣ r - p.base) : p.strictVerdict r = .refused .grain := by
  rw [Param.strictVerdict, if_neg (by omega), if_neg hs, if_pos (mt Int.dvd_of_emod_eq_zero h)]

theorem strictVerdict_pass (hlo : p.lo ≤ r) (hhi : r ≤ p.hi) (hs : ¬ (r < p.slo ∨ p.shi < r))
    (h : (p.grain : Int) ∣ r - p.base) : p.strictVerdict r = .pass r := by
  rw [Param.strictVerdict, if_neg (by omega), if_neg hs, if_neg (not_not.mpr (Int.emod_eq_zero_of_dvd h))]

theorem strictVerdict_ne_step (h : p.step = none) : p.strictVerdict r ≠ .refused .step := by
  by_cases hband : r < p.lo ∨ p.hi < r
  · simp [strictVerdict_band hband]
  · have hlo : p.lo ≤ r := by omega
    have hhi : r ≤ p.hi := by omega
    have hs : ¬ (r < p.slo ∨ p.shi < r) := by simp [outside_step_window_iff hlo hhi, h]
    by_cases hg : (p.grain : Int) ∣ r - p.base
    · simp [strictVerdict_pass hlo hhi hs hg]
    · simp [strictVerdict_grain hlo hhi hs hg]

end Strict

/-! ### CLAMP (R60, R62, R63) -/

theorem mul_tdiv_of_nonneg {y d : Int} (hd : 0 < d) (hy : 0 ≤ y) :
    0 ≤ d * y.tdiv d ∧ d * y.tdiv d ≤ y ∧ y < d * y.tdiv d + d := by
  have hq : 0 ≤ d * y.tdiv d := Int.mul_nonneg hd.le (Int.tdiv_nonneg hy hd.le)
  have hsum : d * y.tdiv d + y.tmod d = y := Int.mul_tdiv_add_tmod y d
  have hrem : 0 ≤ y.tmod d := Int.tmod_nonneg d hy
  have hlt : y.tmod d < d := Int.tmod_lt_of_pos y hd
  omega

section Clamp

variable {p : Param} {r x a : Int}

/-- From the baseline upward the candidate is the last grain point not above the clamped request. -/
theorem candidate_of_base_le (hg : 1 ≤ p.grain) (h : p.base ≤ x) :
    p.base ≤ p.candidate x ∧ p.candidate x ≤ x ∧ x < p.candidate x + p.grain := by
  have hy := mul_tdiv_of_nonneg (d := p.grain) (y := x - p.base) (by omega) (by omega)
  unfold Param.candidate
  omega

/-- Below the baseline it is the first grain point not below the clamped request: the mirror image. -/
theorem candidate_of_lt_base (hg : 1 ≤ p.grain) (h : x < p.base) :
    x ≤ p.candidate x ∧ p.candidate x ≤ p.base ∧ p.candidate x - p.grain < x := by
  have hy := mul_tdiv_of_nonneg (d := p.grain) (y := -(x - p.base)) (by omega) (by omega)
  rw [Int.neg_tdiv, Int.mul_neg] at hy
  unfold Param.candidate
  omega

theorem grain_dvd_candidate : (p.grain : Int) ∣ p.candidate x - p.base := by
  simp [Param.candidate]

theorem grain_dvd_corrected (h : (p.grain : Int) ∣ a - p.base) : (p.grain : Int) ∣ p.corrected a - p.base := by
  unfold Param.corrected
  split
  · rw [add_sub_right_comm]; exact dvd_add_self_right.mpr h
  · split
    · rw [sub_right_comm]; exact dvd_sub_self_right.mpr h
    · exact h

/-- Two grain points in order are a grain apart. -/
theorem add_grain_le_of_lt {b : Int} (ha : (p.grain : Int) ∣ a - p.base) (hb : (p.grain : Int) ∣ b - p.base)
    (h : a < b) : a + p.grain ≤ b := by
  have hdvd : (p.grain : Int) ∣ b - a := by simpa using dvd_sub hb ha
  have hle := Int.le_of_dvd (by omega) hdvd
  omega

/-- R60: the current value lies in the target window. -/
theorem current_mem_target (hlo : p.lo ≤ p.current) (hhi : p.current ≤ p.hi) :
    p.tlo ≤ p.current ∧ p.current ≤ p.thi := by
  cases hs : p.step with
  | none => simp [Param.tlo, Param.thi, Param.slo, Param.shi, hs, hlo, hhi]
  | some n => simp [Param.tlo, Param.thi, Param.slo, Param.shi, hs, hlo, hhi]

theorem clampRequest_mem_target (h : p.tlo ≤ p.thi) :
    p.tlo ≤ p.clampRequest r ∧ p.clampRequest r ≤ p.thi := by
  unfold Param.clampRequest
  split
  · omega
  · split <;> omega

theorem base_lt_tlo_of_candidate_lt (hg : 1 ≤ p.grain) (hx : p.tlo ≤ x) (h : p.candidate x < p.tlo) :
    p.base < p.tlo := by
  rcases le_or_gt p.base x with hb | hb
  · have := candidate_of_base_le hg hb
    omega
  · have := candidate_of_lt_base hg hb
    omega

theorem thi_lt_base_of_lt_candidate (hg : 1 ≤ p.grain) (hx : x ≤ p.thi) (h : p.thi < p.candidate x) :
    p.thi < p.base := by
  rcases le_or_gt p.base x with hb | hb
  · have := candidate_of_base_le hg hb
    omega
  · have := candidate_of_lt_base hg hb
    omega

/-- R63: one grain suffices. A candidate below the window has the current value, a grain point of the window, at least a
grain above it, and the next grain point already lies above the clamped request; the other side is the mirror image. -/
theorem corrected_candidate_mem_target (hg : 1 ≤ p.grain) (hc : p.tlo ≤ p.current ∧ p.current ≤ p.thi)
    (hdvd : (p.grain : Int) ∣ p.current - p.base) (hx : p.tlo ≤ x ∧ x ≤ p.thi) :
    p.tlo ≤ p.corrected (p.candidate x) ∧ p.corrected (p.candidate x) ≤ p.thi := by
  unfold Param.corrected
  split
  next hbelow =>
    have hbase := base_lt_tlo_of_candidate_lt hg hx.1 hbelow
    have habove := candidate_of_base_le (x := x) hg (by omega)
    have hnext := add_grain_le_of_lt grain_dvd_candidate hdvd (show p.candidate x < p.current by omega)
    omega
  next =>
    split
    next habove =>
      have hbase := thi_lt_base_of_lt_candidate hg hx.2 habove
      have hbelow := candidate_of_lt_base (x := x) hg (by omega)
      have hnext := add_grain_le_of_lt hdvd grain_dvd_candidate (show p.current < p.candidate x by omega)
      omega
    next => omega

theorem clampVerdict_held (h : p.clampValue r = p.current) : p.clampVerdict r = .held := if_pos h

theorem clampVerdict_pass (hc : p.clampValue r ≠ p.current) (hr : p.clampValue r = r) :
    p.clampVerdict r = .pass (p.clampValue r) := by
  rw [Param.clampVerdict, if_neg hc, if_pos hr]

theorem clampVerdict_clamped (hc : p.clampValue r ≠ p.current) (hr : p.clampValue r ≠ r) :
    p.clampVerdict r = .clamped (p.clampValue r) := by
  rw [Param.clampVerdict, if_neg hc, if_neg hr]

theorem clampVerdict_ne_refused (why : Policy) : p.clampVerdict r ≠ .refused why := by
  by_cases hc : p.clampValue r = p.current
  · simp [clampVerdict_held hc]
  · by_cases hr : p.clampValue r = r
    · simp [clampVerdict_pass hc hr]
    · simp [clampVerdict_clamped hc hr]

end Clamp

/-! ### Words (R58, R67) -/

/-- The number the words of a parameter stand for before its sign is read (R58). -/
def Param.raw (p : Param) (w l : Word) : Int := if p.wide then 65536 * w.toNat + l.toNat else w.toNat

/-- How many values the words of a parameter can stand for. -/
def Param.span (p : Param) : Int := if p.wide then 4294967296 else 65536

/-- The words that stand for a number (R67). -/
def Param.split (p : Param) (u : Nat) : List Word :=
  if p.wide then [BitVec.ofNat 16 (u / 65536), BitVec.ofNat 16 (u % 65536)] else [BitVec.ofNat 16 u]

section Words

variable {p : Param} {w l : Word} {a : Int} {u : Nat}

theorem decode_nonneg (h : p.signed = false ∨ w.toNat ≤ 32767) : p.decode w l = p.raw w l := by
  have hsign : (p.signed && decide (32768 ≤ w.toNat)) = false := by
    rcases h with h | h
    · simp [h]
    · simp [show ¬ 32768 ≤ w.toNat by omega]
  simp [Param.decode, Param.raw, hsign]

theorem decode_neg (hs : p.signed = true) (h : 32768 ≤ w.toNat) : p.decode w l = p.raw w l - p.span := by
  cases hw : p.wide <;> simp [Param.decode, Param.raw, Param.span, hs, h, hw]

theorem encode_of_nonneg (h : 0 ≤ a) : p.encode a = p.split a.toNat := by
  simp [Param.encode, Param.split, Int.not_lt.mpr h]

theorem encode_of_neg (h : a < 0) : p.encode a = p.split (a + p.span).toNat := by
  cases hw : p.wide <;> simp [Param.encode, Param.split, Param.span, h, hw]

theorem raw_mem_span : 0 ≤ p.raw w l ∧ p.raw w l < p.span := by
  have hw := w.isLt
  have hl := l.isLt
  unfold Param.raw Param.span
  split <;> omega

/-- The sign bit of the first word is the upper half of the span. -/
theorem sign_iff : 32768 ≤ w.toNat ↔ p.span ≤ 2 * p.raw w l := by
  have hl := l.isLt
  unfold Param.raw Param.span
  split <;> omega

theorem kind_unsigned (h : p.signed = false) :
    kindMin p.wide p.signed = 0 ∧ kindMax p.wide p.signed = p.span - 1 := by
  cases hw : p.wide <;> simp [kindMin, kindMax, Param.span, h, hw]

theorem kind_signed (h : p.signed = true) :
    2 * kindMin p.wide p.signed = - p.span ∧ 2 * kindMax p.wide p.signed = p.span - 2 := by
  cases hw : p.wide <;> simp [kindMin, kindMax, Param.span, h, hw]

theorem decode_mem_kind : kindMin p.wide p.signed ≤ p.decode w l ∧ p.decode w l ≤ kindMax p.wide p.signed := by
  have hraw := raw_mem_span (p := p) (w := w) (l := l)
  have hsign := sign_iff (p := p) (w := w) (l := l)
  cases hs : p.signed with
  | false =>
    have hkind := kind_unsigned hs
    rw [hs] at hkind
    rw [decode_nonneg (Or.inl hs)]
    omega
  | true =>
    have hkind := kind_signed hs
    rw [hs] at hkind
    rcases Nat.lt_or_ge w.toNat 32768 with h | h
    · rw [decode_nonneg (Or.inr (by omega))]
      omega
    · rw [decode_neg hs h]
      omega

theorem split_raw : p.split (p.raw w l).toNat = if p.wide = true then [w, l] else [w] := by
  have hl := l.isLt
  cases hw : p.wide with
  | false => simp [Param.split, Param.raw, hw]
  | true =>
    have hnum : (p.raw w l).toNat = 65536 * w.toNat + l.toNat := by simp only [Param.raw, hw, if_true]; omega
    have hhigh : (65536 * w.toNat + l.toNat) / 65536 = w.toNat := by omega
    have hlow : (65536 * w.toNat + l.toNat) % 65536 = l.toNat := by omega
    simp [Param.split, hw, hnum, hhigh, hlow]

theorem raw_split (h : (u : Int) < p.span) : p.raw ((p.split u).getD 0 0) ((p.split u).getD 1 0) = u := by
  unfold Param.span at h
  cases hw : p.wide with
  | false =>
    have hword : u % 65536 = u := by simp [hw] at h; omega
    simp [Param.raw, Param.split, hw, hword]
  | true =>
    have hhigh : u / 65536 % 65536 = u / 65536 := by simp [hw] at h; omega
    simp [Param.raw, Param.split, hw, hhigh]
    omega

theorem length_split : (p.split u).length = p.width := by
  unfold Param.split Param.width
  split <;> rfl

theorem encode_decode : p.encode (p.decode w l) = if p.wide = true then [w, l] else [w] := by
  have hraw := raw_mem_span (p := p) (w := w) (l := l)
  by_cases h : p.signed = false ∨ w.toNat ≤ 32767
  · rw [decode_nonneg h, encode_of_nonneg hraw.1, split_raw]
  · obtain ⟨hs, hw⟩ := not_or.mp h
    rw [decode_neg (Bool.eq_true_of_not_eq_false hs) (by omega), encode_of_neg (by omega), Int.sub_add_cancel,
      split_raw]

theorem length_encode : (p.encode a).length = p.width := by
  rcases lt_or_ge a 0 with h | h
  · rw [encode_of_neg h, length_split]
  · rw [encode_of_nonneg h, length_split]

/-- The words of a value of the kind's range decode to it: the lower half of a signed kind stands, a span higher, where
the sign bit is set. -/
theorem decode_encode (hmin : kindMin p.wide p.signed ≤ a) (hmax : a ≤ kindMax p.wide p.signed) :
    p.decode ((p.encode a).getD 0 0) ((p.encode a).getD 1 0) = a := by
  cases hs : p.signed with
  | false =>
    obtain ⟨hlo, hhi⟩ := kind_unsigned hs
    have ha : 0 ≤ a := by omega
    rw [decode_nonneg (Or.inl hs), encode_of_nonneg ha, raw_split (by omega)]
    omega
  | true =>
    obtain ⟨hlo, hhi⟩ := kind_signed hs
    rcases lt_or_ge a 0 with ha | ha
    · have hraw := raw_split (p := p) (u := (a + p.span).toNat) (by omega)
      rw [encode_of_neg ha, decode_neg hs (sign_iff.mpr (by rw [hraw]; omega)), hraw]
      omega
    · have hraw := raw_split (p := p) (u := a.toNat) (by omega)
      have hsign := mt sign_iff.mp (show ¬ p.span ≤ 2 * _ by rw [hraw]; omega)
      rw [encode_of_nonneg ha, decode_nonneg (Or.inr (by omega)), hraw]
      omega

end Words

/-! ### The statements -/

/-- Settles O52: the tests in order, then the budget test, which refuses nothing STEP by itself. -/
theorem strictVerdict : Obligations.StrictVerdict := by
  intro p r now hp hr lo hi far
  have hv := verdict_of_strict (now := now) hp hr
  refine ⟨fun hband => ?_, fun hlo hhi hfar => ?_, fun hlo hhi hfar hg => ?_, fun hlo hhi hfar hg => ?_,
    fun hnone hstep => ?_⟩
  · rw [hv, strictVerdict_band hband, budgeted_refused]
  · rw [hv, strictVerdict_step hlo hhi ((outside_step_window_iff hlo hhi).mpr hfar), budgeted_refused]
  · rw [hv, strictVerdict_grain hlo hhi (mt (outside_step_window_iff hlo hhi).mp hfar) hg, budgeted_refused]
  · rw [hv, strictVerdict_pass hlo hhi (mt (outside_step_window_iff hlo hhi).mp hfar) hg, budgeted_pass]
  · rw [hv] at hstep
    rcases refused_of_budgeted_refused hstep with h | h
    · cases h
    · exact strictVerdict_ne_step hnone h

/-- Settles O54: the current value is a grain point of the target window, so that a candidate that misses the window
lands in it one grain on. -/
theorem clampLandsInTheTargetWindow : Obligations.ClampLandsInTheTargetWindow := by
  intro p r now hp hg _ _ hlo hhi hdvd hr lo hi tlo thi x point a
  have hc : p.tlo ≤ p.current ∧ p.current ≤ p.thi := current_mem_target hlo hhi
  have hx : p.tlo ≤ x ∧ x ≤ p.thi := clampRequest_mem_target (by omega)
  have ha : p.tlo ≤ a ∧ a ≤ p.thi := corrected_candidate_mem_target hg hc hdvd hx
  have hv := verdict_of_clamp (now := now) hp hr
  refine ⟨candidate_of_base_le hg, candidate_of_lt_base hg, base_lt_tlo_of_candidate_lt hg hx.1,
    thi_lt_base_of_lt_candidate hg hx.2, ha.1, ha.2, grain_dvd_corrected grain_dvd_candidate, fun hheld => ?_,
    fun hmoved hpass => ?_, fun hmoved hother => ?_, fun why hwhy => ?_⟩
  · rw [hv, clampVerdict_held hheld, budgeted_held]
  · rw [hv, clampVerdict_pass hmoved hpass, budgeted_pass]; rfl
  · rw [hv, clampVerdict_clamped hmoved hother, budgeted_clamped]; rfl
  · rw [hv] at hwhy
    exact (refused_of_budgeted_refused hwhy).resolve_right (clampVerdict_ne_refused why)

/-- Settles O55: decoding reads the words as a number and takes a span off when the sign bit is set; encoding puts the
span back and splits the number. -/
theorem valuesEncodeAndDecode : Obligations.ValuesEncodeAndDecode := by
  refine ⟨fun p w l => ⟨decode_nonneg, decode_neg, decode_mem_kind.1, decode_mem_kind.2, fun now h => ?_,
    encode_decode⟩, fun p a hmin hmax => ⟨length_encode, decode_encode hmin hmax⟩⟩
  rw [verdict_current h]
  exact ⟨rfl, rfl, rfl⟩

end Sys2Proof.Machine
end

section
/-! SUPPORT. What a command can do to the guard, said once: `Move` lists the kinds of change, `exec_moves` says that every
command but those of supply and reset is a sequence of them, and the invariants follow from what each kind keeps. -/

namespace Sys2Proof.Machine

open Sys2Proof

variable {s t : State}

/-! ### Requests and their tables of checks -/

@[simp] theorem checked_nil (s : State) (a : Taken) : checked [] s a = a := rfl

@[simp] theorem checked_cons (b : Bool) (r : Reason) (rows : List CheckRow) (s : State) (a : Taken) :
    checked ((b, r) :: rows) s a = if b = true then (.refused r, s) else checked rows s a := by
  cases b <;> rfl

/-- A table of checks refuses and leaves the guard as it was, or lets the request through with every check passed. -/
theorem checked_cases (rows : List CheckRow) (s : State) (a : Taken) :
    (∃ r, checked rows s a = (.refused r, s)) ∨ ((∀ x ∈ rows, x.1 = false) ∧ checked rows s a = a) := by
  induction rows with
  | nil => exact .inr ⟨by simp, rfl⟩
  | cons x rows ih =>
    obtain ⟨b, r⟩ := x
    cases b with
    | true => exact .inl ⟨r, rfl⟩
    | false =>
      rcases ih with ⟨r, h⟩ | ⟨h, e⟩
      · exact .inl ⟨r, by simpa using h⟩
      · exact .inr ⟨by simpa using h, by simpa using e⟩

/-- The state after a table of checks is the one before it, or the accepted one with every check passed. -/
theorem checked_state_cases (rows : List CheckRow) (s : State) (a : Taken) :
    (checked rows s a).2 = s ∨ ((∀ x ∈ rows, x.1 = false) ∧ (checked rows s a).2 = a.2) := by
  rcases checked_cases rows s a with ⟨r, h⟩ | ⟨h, e⟩
  · exact .inl (by rw [h])
  · exact .inr ⟨h, by rw [e]⟩

theorem controllerChecked_cases (row : ChState → Option Reason) (s : State) (own : Taken) :
    (∃ r, controllerChecked row s own = (.refused r, s)) ∨ controllerChecked row s own = own := by
  unfold controllerChecked
  split
  · exact .inl ⟨_, rfl⟩
  · split
    · exact .inl ⟨_, rfl⟩
    · exact .inr rfl

/-- In CONFIGURE with the lock flag clear the two checks of every configuration request pass. -/
theorem checked_config (h : s.configuring) (rows : List CheckRow) (a : Taken) :
    checked (configRows s ++ rows) s a = checked rows s a := by
  obtain ⟨-, hl, hs⟩ := h
  simp [configRows, hl, hs]

theorem checked_configRows (h : s.configuring) (a : Taken) : checked (configRows s) s a = a := by
  simpa using checked_config h [] a

theorem refusedRange_of_configuring (h : s.configuring) : refusedRange s = (.refused .range, s) := by
  unfold refusedRange
  rw [checked_config h]
  rfl

/-- While the lock flag is set a configuration request is refused LOCKED, whatever it asks. -/
theorem checked_locked (h : s.locked = true) (rows : List CheckRow) (a : Taken) :
    checked (configRows s ++ rows) s a = (.refused .locked, s) := by
  simp [configRows, h]

theorem checked_configRows_locked (h : s.locked = true) (a : Taken) :
    checked (configRows s) s a = (.refused .locked, s) := by
  simpa using checked_locked h [] a

theorem refusedRange_locked (h : s.locked = true) : refusedRange s = (.refused .locked, s) := checked_locked h _ _

/-- A request that arrives on the idle link of a running guard is answered with what `respond` gives it. -/
theorem answers_of_respond {c : Instr} {tag : Byte} {q : SupRequest} {r : Response}
    (hc : exec c s = .next (supArrive tag q s)) (h : s.taking) (hr : respond q s = (r, t)) : Answers c tag s r t := by
  obtain ⟨hp, ha⟩ := h
  unfold Answers
  rw [hc, supArrive, whenRunning_running _ _ hp]
  simp only [ha, takeRequest, hr, beginReply, replyOf]

/-! ### The kinds of change -/

/-- Every image that no channel was capturing in `s` stands in `t` as it stood. -/
def KeepsImages (s t : State) : Prop := ∀ ims, ImagesFrom ims s → ImagesFrom ims t

theorem KeepsImages.of_eq (h : t.images = s.images) : KeepsImages s t := fun _ hi n im hn hc => by
  rw [h]; exact hi n im hn hc

/-- One change of the guard: the settings stay (R173), a request is taken, a reply has been sent, the guard restarts
after RESTART's reply, a second passes. -/
inductive Move : State → State → Prop
  | keeps {s t : State} (hs : t.settings = s.settings) (hi : KeepsImages s t) : Move s t
  | request {s : State} (tag : Byte) (q : SupRequest) (ha : s.sup.answering = none) : Move s (takeRequest tag q s)
  | sent {s : State} (x : SupLink) (hr : s.sup.restarting = false) (ha : x.answering = none)
      (hx : x.restarting = false) : Move s { s with sup := x }
  | restart {s : State} (x : SupLink) (hr : s.sup.restarting = true) (ha : s.sup.answering ≠ none) :
      Move s (startUp .request { s with sup := x })
  | second {s : State} (n : Nat) (hn : n ≤ Config.guardTimeMax) : Move s { s with guardTime := n }

/-- A sequence of moves. -/
abbrev Moves : State → State → Prop := Relation.ReflTransGen Move

theorem Moves.keeps (hs : t.settings = s.settings) (hi : KeepsImages s t) : Moves s t := .single (.keeps hs hi)

/-- What the settings leave out, the images apart, may change. -/
theorem Moves.settings (hs : t.settings = s.settings) (hi : t.images = s.images) : Moves s t :=
  .keeps hs (.of_eq hi)

theorem Moves.whenRunning {f : State → State} (h : s.power = .running → Moves s (f s)) :
    Moves s (whenRunning f s) := by
  unfold Machine.whenRunning
  split
  · next hp => exact h hp
  · exact .refl

/-- What carries every property that the elementary updates keep carries the images. -/
theorem KeepsImages.of_kept (h : ∀ P, Kept P → P s → P t) : KeepsImages s t := fun ims => h _ (images_kept ims)

theorem whenRunning_images {f : State → State} (h : (f s).images = s.images) :
    (whenRunning f s).images = s.images := by
  unfold whenRunning
  split
  · exact h
  · rfl

theorem supArrive_moves (tag : Byte) (q : SupRequest) (s : State) : Moves s (supArrive tag q s) := by
  refine Moves.whenRunning (fun _ => ?_)
  split
  · next ha => exact .single (.request tag q ha)
  · exact .settings (setSup_settings _ _ rfl rfl) rfl
  · exact .settings (setSup_settings _ _ rfl rfl) rfl

theorem replySent_moves (s : State) : Moves s (replySent s) := by
  refine Moves.whenRunning (fun _ => ?_)
  split
  · exact .refl
  · next r ha =>
    split
    · next hr => exact .single (.restart _ hr (by simp [ha]))
    · next hr =>
      have hr : s.sup.restarting = false := by simpa using hr
      split
      · exact .single (.sent _ hr rfl hr)
      · next tag q hh =>
        have h1 : Moves s { s with sup := { s.sup with answering := none, held := none, lastSent := some r } } :=
          .single (.sent _ hr rfl hr)
        exact h1.tail (.request tag q rfl)

theorem passMs_moves (n : Nat) (s : State) : Moves s (passMs n s) :=
  .settings (passMs_settings n s) (whenRunning_images rfl)

theorem setTime_moves (n m : Nat) (s : State) (hn : n ≤ Config.guardTimeMax) :
    Moves s { s with guardTime := n, subSecond := m } := by
  have h1 : Moves s { s with subSecond := m } := .settings rfl rfl
  exact h1.tail (.second n hn)

theorem tick_moves (s : State) : Moves s (tick s) := by
  refine Moves.whenRunning (fun _ => ?_)
  have h1 := passMs_moves (1000 - s.subSecond) s
  simp only
  generalize passMs (1000 - s.subSecond) s = u at h1 ⊢
  exact h1.trans (setTime_moves _ _ u (Nat.min_le_left _ _))

/-! ### Frames and bytes -/

theorem stationBytes_moves (i : Station) (f : Frame) (s : State) : Moves s (stationBytes i f s) :=
  .keeps (by simp) (.of_kept (fun P k h => Kept.whenRunning (fun h => by
    split
    · exact k.stationFrame _ _ _ h
    · exact h) h))

theorem stationReply_moves (i : Station) (seq : Byte) (r : StationReply) (s : State) :
    Moves s (stationReply i seq r s) :=
  .keeps (by simp) (.of_kept (fun P k h => Kept.whenRunning (fun h => k.stationFrame _ _ _ h) h))

theorem toolFrame_moves (e : EngId) (tag : Byte) (q : ToolRequest) (s : State) : Moves s (toolFrame e tag q s) :=
  .keeps (by simp) (.of_kept (fun P k h => k.toolFrame _ _ _ h))

theorem setRx_moves (l : LinkId) (bs : List Byte) (s : State) : Moves s (setRx l bs s) :=
  .settings (by simp) (by cases l <;> rfl)

theorem takeFrame_moves (l : LinkId) (f : Frame) (s : State) : Moves s (takeFrame l f s) := by
  cases l with
  | station i => exact stationBytes_moves i f s
  | engineering e => exact toolFrame_moves e _ _ s
  | supervisor => exact supArrive_moves _ _ s

theorem takeWhole_moves (l : LinkId) (whole : Option (List Byte)) (s : State) : Moves s (takeWhole l whole s) := by
  unfold takeWhole
  split
  · exact .refl
  · split
    · exact takeFrame_moves l _ s
    · exact .refl

theorem feedByte_moves (l : LinkId) (b : Byte) (s : State) : Moves s (feedByte l b s) := by
  refine Moves.whenRunning (fun _ => ?_)
  split
  · exact (setRx_moves l _ s).trans (takeWhole_moves l _ _)
  · exact .refl

theorem feed_moves (l : LinkId) (bs : List Byte) (s : State) : Moves s (feed l bs s) := by
  induction bs generalizing s with
  | nil => exact .refl
  | cons b bs ih => exact (feedByte_moves l b s).trans (ih _)

/-! ### Every command -/

/-- Supply and the RESET terminal start and stop the guard; every other command is a sequence of moves. -/
def startsOrStops : Instr → Bool
  | .powerOn _ => true
  | .resetTerminal => true
  | .resetTerminalRelease _ => true
  | .supplyRemoved => true
  | _ => false

theorem exec_moves {c : Instr} (hc : startsOrStops c = false) (h : exec c s = .next t) : Moves s t := by
  have kept : ∀ {u : State}, u.settings = s.settings → (∀ P, Kept P → P s → P u) → Moves s u :=
    fun h1 h2 => .keeps h1 (.of_kept h2)
  have running : ∀ {f : State → State}, (whenRunning f s).settings = s.settings →
      (∀ P, Kept P → P s → P (f s)) → Moves s (whenRunning f s) :=
    fun h1 h2 => kept h1 (fun P k h => Kept.whenRunning (h2 P k) h)
  cases c
  all_goals
    first
    | cases hc; done
    | cases h
  case guardTimeTick => exact tick_moves s
  case budgetWindowClose n =>
    refine Moves.whenRunning (fun _ => .settings (settings_of_outside ?_) rfl)
    simp only [State.outside]
    rw [map_tableMod_self]
    intro p
    rfl
  case attentionHoldoffExpiry => exact .settings (holdoffExpiry_settings s) (whenRunning_images rfl)
  case resetTerminalAsserted => exact .settings (by unfold resetRises; split <;> rfl) (by unfold resetRises; split <;> rfl)
  case restart tag moved =>
    have h1 : Moves s (moveJumpers moved s) := .settings rfl rfl
    exact h1.trans (supArrive_moves _ _ _)
  case replyTransmitted => exact replySent_moves s
  case frameCheckFailed l bs => exact feed_moves l bs s
  case frameLengthOverrange l bs => exact feed_moves l bs s
  case interbyteGap l bs => exact Moves.whenRunning (fun _ => (setRx_moves l [] s).trans (feed_moves l bs _))
  case toolList => exact toolFrame_moves _ _ _ s
  case toolRead => exact toolFrame_moves _ _ _ s
  case toolWrite => exact toolFrame_moves _ _ _ s
  case badRequest => exact toolFrame_moves _ _ _ s
  case malformedReply => exact stationBytes_moves _ _ s
  case strayFrame => exact stationBytes_moves _ _ s
  case presentAsserted e =>
    refine .settings (presentAsserted_settings e s) ?_
    unfold presentAsserted; simp only; (repeat' split) <;> rfl
  case presentDropped e =>
    refine .settings (presentDropped_settings e s) ?_
    unfold presentDropped; simp only; (repeat' split) <;> rfl
  case detachTimerExpiry e =>
    exact .settings (detachExpiry_settings e s) (whenRunning_images (by simp only; split <;> rfl))
  case portSettleExpiry e =>
    exact .settings (portSettleExpiry_settings e s) (whenRunning_images (by simp only; split <;> rfl))
  case strikeWindowExpiry e =>
    exact .settings (strikeWindowExpiry_settings e s) (whenRunning_images (by split <;> rfl))
  case lockoutExpiry e =>
    exact .settings (lockoutExpiry_settings e s) (whenRunning_images (by split <;> rfl))
  case identTimerExpiry i => exact running (identExpiry_settings i s) (fun P k h => by
    split
    · exact k.sendRequest _ _ _ (k.link _ _ _ h)
    · exact h)
  case trainingPauseExpiry i => exact running (pauseExpiry_settings i s) (fun P k h => by
    split
    · exact k.trainStep _ _ _ h
    · exact h)
  case pollIntervalExpiry i => exact running (pollExpiry_settings i s) (fun P k h => by
    split
    · exact k.placePresence _ (k.link _ _ _ h)
    · exact h)
  case replyTimeout i => exact running (timeoutExpiry_settings i s) (fun P k h => by
    split
    · exact k.endTransaction _ _ _ h
    · exact h)
  case releaseSettleExpiry p => exact kept (settleExpiry_settings p s) (fun P k h => k.settleExpiry p h)
  case releaseLimitExpiry p => exact kept (limitExpiry_settings p s) (fun P k h => k.limitExpiry p h)
  case inhibitSenseChange p l => exact running (senseChange_settings p l s) (fun P k h => k.sync _ _ (k.sensed _ _ _ h))
  case inhibitFault p => exact running (disagreeExpiry_settings p s) (fun P k h => by
    split
    · exact k.faultPort _ h
    · exact h)
  case inputRawChange x l => exact kept (rawChange_settings x l s) (fun P k h => k.rawChange x l h)
  case inputDebounceExpiry x => exact running (debounceExpiry_settings x s) (fun P k h => by
    split
    · exact h
    · exact k.acceptLevel _ h)
  case auditPaceExpiry => exact running (paceExpiry_settings s) (fun P k h => k.auditPaceExpiry h)
  all_goals
    first
    | exact stationReply_moves _ _ _ s
    | exact supArrive_moves _ _ s

theorem exec_completes (c : Instr) (s : State) : ∃ t, exec c s = .next t := by
  cases c <;> exact ⟨_, rfl⟩

end Sys2Proof.Machine
end

section
/-! SUPPORT. What requests do to the settings (R173), and the statements that hold over every command: each completes, a
locked guard keeps its settings, and the three invariants. -/

namespace Sys2Proof.Machine

open Sys2Proof

variable {s t : State}

/-! ### Requests that are answered while the guard is locked -/

theorem checked_settings {rows : List CheckRow} {a : Taken} (ha : a.2.settings = s.settings) :
    (checked rows s a).2.settings = s.settings := by
  rcases checked_state_cases rows s a with h | ⟨-, h⟩
  · rw [h]
  · rw [h, ha]

theorem controllerChecked_settings {row : ChState → Option Reason} {a : Taken} (ha : a.2.settings = s.settings) :
    (controllerChecked row s a).2.settings = s.settings := by
  rcases controllerChecked_cases row s a with ⟨r, h⟩ | h
  · rw [h]
  · rw [h, ha]

@[simp] theorem modEntry_settings (k : Nat) (f : AuditEntry → AuditEntry) (hf : ∀ e, (f e).core = e.core) (s : State) :
    (s.modEntry k f).settings = s.settings := settings_of_outside (modEntry_outside _ _ _ hf)

theorem startWork_settings (c : ChanId) (w : AccessWork) (s : State) : (startWork c w s).settings = s.settings := by
  simp [startWork]

@[simp] theorem auditHold_settings (set : List Station) (s : State) : (auditHold set s).settings = s.settings :=
  settings_of_outside (auditHold_outside set s)
@[simp] theorem auditRelease_settings (set : List Station) (s : State) : (auditRelease set s).settings = s.settings :=
  settings_of_outside (auditRelease_outside set s)
@[simp] theorem beginWork_settings (st : ChState) (s : State) : (beginWork st s).settings = s.settings :=
  settings_of_outside (beginWork_outside st s)
@[simp] theorem succeed_settings (s : State) : (succeed s).settings = s.settings :=
  settings_of_outside (succeed_outside s)
@[simp] theorem setChangeover_settings (c : Changeover) (s : State) :
    State.settings { s with changeover := c } = s.settings := rfl
@[simp] theorem modCh_settings (f : Changeover → Changeover) (s : State) : (modCh f s).settings = s.settings := rfl

theorem openEffects_settings (f : Nat) (set : List Station) (s : State) :
    (openEffects f set s).settings = s.settings := by simp [openEffects]

theorem launch_settings (work : List Step) (s : State) : (launch work s).settings = s.settings := by
  unfold launch
  simp only
  split <;> simp

theorem releaseHold_settings (s : State) : (releaseHold s).settings = s.settings := by simp [releaseHold]

theorem revertEffects_settings (s : State) : (revertEffects s).settings = s.settings := by
  simp [revertEffects, launch_settings]

theorem restoreEffects_settings (k : Nat) (e : AuditEntry) (s : State) :
    (restoreEffects k e s).settings = s.settings := by simp [restoreEffects]

theorem openChecked_state_cases (f : Nat) (s : State) :
    (openChecked f s).2 = s ∨ ∃ set, (openChecked f s).2 = openEffects f set s := by
  unfold openChecked
  simp only
  (repeat' split)
  all_goals first
    | exact .inl rfl
    | exact .inr ⟨_, rfl⟩

theorem takeOpen_state_cases (f : Nat) (s : State) :
    (takeOpen f s).2 = s ∨ ∃ set, (takeOpen f s).2 = openEffects f set s := by
  unfold takeOpen
  split
  · rcases controllerChecked_cases startRow s (openChecked f s) with ⟨r, h⟩ | h
    · exact .inl (by rw [h])
    · rw [h]; exact openChecked_state_cases f s
  · exact .inl rfl

theorem takeApply_state_cases (s : State) : (takeApply s).2 = s ∨ ∃ work, (takeApply s).2 = launch work s := by
  unfold takeApply
  split
  · exact .inl (by rcases controllerChecked_cases openRow s _ with ⟨r, h⟩ | h <;> rw [h])
  · rcases controllerChecked_cases openRow s (.ok .none, launch (buildWork (s.changeover.target.getD 0) s) s)
      with ⟨r, h⟩ | h
    · exact .inl (by rw [h])
    · exact .inr ⟨_, by rw [h]⟩

theorem takeRevert_state_cases (s : State) : (takeRevert s).2 = s ∨ (takeRevert s).2 = revertEffects s := by
  unfold takeRevert
  rcases controllerChecked_cases failedRow s _ with ⟨r, h⟩ | h
  · exact .inl (by rw [h])
  · rw [h]
    (repeat' split)
    all_goals first
      | exact .inl rfl
      | exact .inr rfl

theorem takeRestore_state_cases (k : Nat) (s : State) :
    (takeRestore k s).2 = s ∨ ∃ e, s.audit[k]? = some e ∧ (takeRestore k s).2 = restoreEffects k e s := by
  unfold takeRestore
  split
  · rcases controllerChecked_cases startRow s (restoreChecked k s) with ⟨r, h⟩ | h
    · exact .inl (by rw [h])
    · rw [h]
      unfold restoreChecked
      split
      · exact .inl rfl
      · next e he =>
        exact (checked_state_cases _ s _).imp id (fun h => ⟨e, he, h.2⟩)
  · exact .inl rfl

theorem takeDirectRead_state_cases (r : DirectReadReq) (s : State) :
    (takeDirectRead r s).2 = s ∨ ∃ c w, (takeDirectRead r s).2 = startWork c w s := by
  unfold takeDirectRead
  split
  · exact .inl rfl
  · split
    · exact .inl ((checked_state_cases _ s _).elim id (fun h => h.2))
    · exact (checked_state_cases _ s _).imp id (fun h => ⟨_, _, h.2⟩)

theorem takeAckDrift_state_cases (k : Nat) (s : State) :
    (takeAckDrift k s).2 = s ∨ (takeAckDrift k s).2 = s.modEntry k AuditEntry.acknowledged := by
  unfold takeAckDrift
  (repeat' split)
  all_goals first
    | exact .inl rfl
    | exact .inr rfl

theorem takeAccessResult_state_cases (n : Nat) (s : State) :
    (takeAccessResult n s).2 = s ∨ ∃ c, (takeAccessResult n s).2 = s.setChan c .free := by
  unfold takeAccessResult
  (repeat' split)
  all_goals first
    | exact .inl rfl
    | exact .inr ⟨_, rfl⟩

theorem takeAuditNow_state_cases (n : Nat) (s : State) :
    (takeAuditNow n s).2 = s ∨ ∃ i, (takeAuditNow n s).2 = requestSweep i s := by
  unfold takeAuditNow
  split
  · exact .inl rfl
  · exact (checked_state_cases _ s _).imp id (fun h => ⟨_, h.2⟩)

theorem takeReleaseStation_state_cases (n : Nat) (s : State) :
    (takeReleaseStation n s).2 = s ∨ ∃ i, (takeReleaseStation n s).2 = releaseStation i s := by
  unfold takeReleaseStation
  split
  · exact .inl rfl
  · exact (checked_state_cases _ s _).imp id (fun h => ⟨_, h.2⟩)

theorem takeReports_state (s : State) (n : Nat) : (takeReadStation n s).2 = s ∧ (takeReadParameter n s).2 = s
    ∧ (takeReadAuditEntry n s).2 = s := by
  refine ⟨?_, ?_, ?_⟩
  · unfold takeReadStation; split <;> rfl
  · unfold takeReadParameter; (repeat' split) <;> rfl
  · unfold takeReadAuditEntry; (repeat' split) <;> rfl

theorem takeLock_state_cases (s : State) :
    (takeLock s).2 = s ∨ (s.stage = .guarding ∧ (takeLock s).2 = { s with locked := true }) :=
  (checked_state_cases _ s _).imp id (fun h => ⟨by simpa using h.1, h.2⟩)

theorem Kept.launch {P : State → Prop} (k : Kept P) (work : List Step) (h : P s) : P (launch work s) := by
  unfold Machine.launch
  simp only
  split
  · exact k.succeed (k.modCh _ h)
  · exact k.beginWork _ (k.modCh _ h)

/-- A request that is answered while the guard is locked keeps the settings, but for LOCK, which sets the lock flag. -/
theorem respond_unlockable (q : SupRequest) (s : State) (hq : lockable q = false) :
    (respond q s).2.settings = s.settings ∨ (s.stage = .guarding ∧ (respond q s).2 = { s with locked := true }) := by
  have same : ∀ {x : State}, x = s → x.settings = s.settings := fun h => by rw [h]
  cases q
  case lock => exact (takeLock_state_cases s).imp same id
  case status => exact .inl rfl
  case readStation n => exact .inl (same (takeReports_state s n).1)
  case readParameter n => exact .inl (same (takeReports_state s n).2.1)
  case readAuditEntry n => exact .inl (same (takeReports_state s n).2.2)
  case takeEvents => exact .inl rfl
  case ackDrift k =>
    refine .inl ?_
    rcases takeAckDrift_state_cases k s with h | h
    · exact same h
    · exact (congrArg _ h).trans (modEntry_settings k AuditEntry.acknowledged (fun _ => rfl) s)
  case auditNow n =>
    refine .inl ?_
    rcases takeAuditNow_state_cases n s with h | ⟨i, h⟩
    · exact same h
    · exact (congrArg _ h).trans (requestSweep_settings i s)
  case releaseStation n =>
    refine .inl ?_
    rcases takeReleaseStation_state_cases n s with h | ⟨i, h⟩
    · exact same h
    · exact (congrArg _ h).trans (releaseStation_settings i s)
  case directRead r =>
    refine .inl ?_
    rcases takeDirectRead_state_cases r s with h | ⟨c, w, h⟩
    · exact same h
    · exact (congrArg _ h).trans (startWork_settings c w s)
  case takeAccessResult n =>
    refine .inl ?_
    rcases takeAccessResult_state_cases n s with h | ⟨c, h⟩
    · exact same h
    · exact (congrArg _ h).trans (setChan_settings s c _)
  case openChangeover f =>
    refine .inl ?_
    rcases takeOpen_state_cases f s with h | ⟨set, h⟩
    · exact same h
    · exact (congrArg _ h).trans (openEffects_settings f set s)
  case applyChangeover =>
    refine .inl ?_
    rcases takeApply_state_cases s with h | ⟨work, h⟩
    · exact same h
    · exact (congrArg _ h).trans (launch_settings work s)
  case cancelChangeover => exact .inl (controllerChecked_settings (releaseHold_settings s))
  case revertChangeover =>
    refine .inl ?_
    rcases takeRevert_state_cases s with h | h
    · exact same h
    · exact (congrArg _ h).trans (revertEffects_settings s)
  case closeChangeover => exact .inl (controllerChecked_settings (releaseHold_settings s))
  case restoreBlock k =>
    refine .inl ?_
    rcases takeRestore_state_cases k s with h | ⟨e, -, h⟩
    · exact same h
    · exact (congrArg _ h).trans (restoreEffects_settings k e s)
  case badRecord => exact .inl rfl
  all_goals cases hq

/-- A request that is refused LOCKED while the guard is locked (R173). -/
theorem respond_lockable (q : SupRequest) (s : State) (hl : s.locked = true) (hq : lockable q = true) :
    respond q s = (.refused .locked, s) := by
  cases q
  case setPortMap r => exact checked_locked hl _ _
  case setStation r =>
    simp only [respond, takeSetStation]
    split
    · exact refusedRange_locked hl
    · exact checked_configRows_locked hl _
  case setInput r =>
    simp only [respond, takeSetInput]
    split
    · exact checked_configRows_locked hl _
    · exact refusedRange_locked hl
  case setTiming r => exact checked_configRows_locked hl _
  case loadWindow r =>
    simp only [respond, takeLoadWindow]
    split
    · exact refusedRange_locked hl
    · exact checked_locked hl _ _
  case loadParameter r =>
    simp only [respond, takeLoadParameter]
    split
    · exact refusedRange_locked hl
    · exact checked_locked hl _ _
  case loadImage r => exact checked_locked hl _ _
  case loadImageWords r =>
    simp only [respond, takeLoadImageWords]
    split <;> exact checked_locked hl _ _
  case addAuditEntry r =>
    simp only [respond, takeAddAuditEntry]
    split
    · exact refusedRange_locked hl
    · exact checked_locked hl _ _
  case loadRecipe r =>
    simp only [respond, takeLoadRecipe]
    split
    · exact refusedRange_locked hl
    · exact checked_locked hl _ _
  case loadRecipeBlock r =>
    simp only [respond, takeLoadRecipeBlock]
    split
    · exact refusedRange_locked hl
    · split <;> exact checked_locked hl _ _
  case loadRecipeValue r =>
    simp only [respond, takeLoadRecipeValue, List.append_assoc]
    split <;> exact checked_locked hl _ _
  case setActiveFormat f => exact checked_locked hl _ _
  case clearTables => exact checked_locked hl _ _
  case arm => exact checked_configRows_locked hl _
  case disarm => simp [respond, takeDisarm, hl]
  case restart => simp [respond, takeRestart, hl]
  case capture r =>
    simp only [respond, takeCapture]
    split
    · exact refusedRange_locked hl
    · split
      · exact checked_locked hl _ _
      · split
        · rw [List.append_assoc]; exact checked_locked hl _ _
        · exact checked_locked hl _ _
  all_goals cases hq

/-- A request that is answered while the guard is locked leaves alone the images that no channel is capturing. -/
theorem respond_keepsImages (q : SupRequest) (s : State) (hq : lockable q = false) : KeepsImages s (respond q s).2 := by
  have same : ∀ {x : State}, x = s → KeepsImages s x := fun h => by subst h; exact fun _ h => h
  have equal : ∀ {x y : State}, x = y → KeepsImages s y → KeepsImages s x := fun h hy => by rw [h]; exact hy
  cases q
  case status => exact same rfl
  case readStation n => exact same (takeReports_state s n).1
  case readParameter n => exact same (takeReports_state s n).2.1
  case readAuditEntry n => exact same (takeReports_state s n).2.2
  case takeEvents => exact .of_eq rfl
  case lock => exact (takeLock_state_cases s).elim same (fun h => equal h.2 (.of_eq rfl))
  case ackDrift k => exact (takeAckDrift_state_cases k s).elim same (fun h => equal h (.of_eq rfl))
  case auditNow n =>
    rcases takeAuditNow_state_cases n s with h | ⟨i, h⟩
    · exact same h
    · exact equal h (.of_kept (fun P k h => k.requestSweep i h))
  case releaseStation n =>
    rcases takeReleaseStation_state_cases n s with h | ⟨i, h⟩
    · exact same h
    · exact equal h (.of_kept (fun P k h => k.releaseStation i h))
  case directRead r =>
    rcases takeDirectRead_state_cases r s with h | ⟨c, w, h⟩
    · exact same h
    · exact equal h (.of_kept (fun P k h => k.place _ _ (k.chan _ _ _ h)))
  case takeAccessResult n =>
    rcases takeAccessResult_state_cases n s with h | ⟨c, h⟩
    · exact same h
    · exact equal h (.of_eq rfl)
  case openChangeover f =>
    rcases takeOpen_state_cases f s with h | ⟨set, h⟩
    · exact same h
    · exact equal h (.of_kept (fun P k h => k.auditHold _ (k.changeover _ _ h)))
  case applyChangeover =>
    rcases takeApply_state_cases s with h | ⟨work, h⟩
    · exact same h
    · exact equal h (.of_kept (fun P k h => k.launch work h))
  case cancelChangeover =>
    exact .of_kept (fun P k h => Whole.controllerChecked _ _ h (k.changeover _ _ (k.auditRelease _ h)))
  case revertChangeover =>
    rcases takeRevert_state_cases s with h | h
    · exact same h
    · exact equal h (.of_kept (fun P k h => k.launch _ (k.modCh _ h)))
  case closeChangeover =>
    exact .of_kept (fun P k h => Whole.controllerChecked _ _ h (k.changeover _ _ (k.auditRelease _ h)))
  case restoreBlock k =>
    rcases takeRestore_state_cases k s with h | ⟨e, -, h⟩
    · exact same h
    · exact equal h (.of_kept (fun P k h => k.beginWork _ (k.auditHold _ (k.changeover _ _ h))))
  case badRecord => exact same rfl
  all_goals cases hq

end Sys2Proof.Machine
end

section
/-! SUPPORT. The statements that hold over every command: each completes and leaves the waiting commands alone, and a locked
guard keeps its settings (R173). -/

namespace Sys2Proof.Machine

open Sys2Proof

variable {s t : State}

/-! ### A locked guard -/

/-- The settings without what a locked guard still changes: guard time and the reply on its way. -/
def State.loaded (s : State) : State := { s.settings with guardTime := 0, sup := .start none }

theorem sup_of_settings (h : t.settings = s.settings) :
    t.sup.answering = s.sup.answering ∧ t.sup.restarting = s.sup.restarting ∧ t.locked = s.locked :=
  ⟨congrArg (fun x => x.sup.answering) h, congrArg (fun x => x.sup.restarting) h, (congrArg State.locked h :)⟩

theorem RestartOk.congr (h : RestartOk s) (e : t.settings = s.settings) : RestartOk t := by
  obtain ⟨ha, hr, hl⟩ := sup_of_settings e
  unfold RestartOk
  rw [ha, hr, hl]
  exact h

theorem RestartOk.not_restarting (h : RestartOk s) (ha : s.sup.answering = none) : s.sup.restarting = false := by
  by_contra hr
  exact (h (by simpa using hr)).1 ha

/-- What a request leaves of a locked guard, before its reply is sent. -/
theorem respond_locked_keeps (q : SupRequest) (hl : s.locked = true) :
    (respond q s).2.settings = s.settings ∧ KeepsImages s (respond q s).2 := by
  cases hq : lockable q with
  | true =>
    rw [respond_lockable q s hl hq]
    exact ⟨rfl, fun _ h => h⟩
  | false =>
    refine ⟨?_, respond_keepsImages q s hq⟩
    rcases respond_unlockable q s hq with h | ⟨-, h⟩
    · exact h
    · rw [h]
      simp only [State.settings, State.outside, hl]

theorem Move.locked (m : Move s t) (hl : s.locked = true) (hr : RestartOk s) :
    t.loaded = s.loaded ∧ RestartOk t ∧ KeepsImages s t := by
  cases m with
  | keeps hs hi => exact ⟨by simp only [State.loaded, hs], hr.congr hs, hi⟩
  | request tag q ha =>
    obtain ⟨hs, hi⟩ := respond_locked_keeps q hl
    refine ⟨?_, fun h => ?_, fun ims h => hi ims h⟩
    · exact congrArg (fun x => { x with guardTime := 0, sup := SupLink.start none }) hs
    · have h1 : (respond q s).2.sup.restarting = true := h
      rw [(sup_of_settings hs).2.1, hr.not_restarting ha] at h1
      cases h1
  | sent x _ _ hx => exact ⟨rfl, fun h => absurd h (by simp [hx]), .of_eq rfl⟩
  | restart x hs _ => exact absurd (hr hs).2 (by simp [hl])
  | second n hn => exact ⟨rfl, hr, .of_eq rfl⟩

theorem Moves.locked (m : Moves s t) (hl : s.locked = true) (hr : RestartOk s) :
    t.loaded = s.loaded ∧ KeepsImages s t := by
  suffices h : t.loaded = s.loaded ∧ RestartOk t ∧ KeepsImages s t from ⟨h.1, h.2.2⟩
  induction m with
  | refl => exact ⟨rfl, hr, fun _ h => h⟩
  | tail _ last ih =>
    obtain ⟨h1, h2, h3⟩ := ih
    have hl' := (congrArg State.locked h1).trans hl
    obtain ⟨g1, g2, g3⟩ := last.locked hl' h2
    exact ⟨g1.trans h1, g2, fun ims h => g3 ims (h3 ims h)⟩

/-- Two inputs with the same fixed part have the same check time and edge mode. -/
theorem inputs_fixed_get {a b : Inputs} (h : a.fixed = b.fixed) (x : InputId) :
    (a.get x).checkTime = (b.get x).checkTime ∧ (a.get x).mode = (b.get x).mode := by
  have h1 : a.fixed.get x = b.fixed.get x := by rw [h]
  cases x <;> exact ⟨(congrArg InputRec.checkTime h1 :), (congrArg InputRec.mode h1 :)⟩

/-- What was fixed when an image was opened, at every place of the list. -/
theorem image_of_core_eq {xs ys : List Image} (h : ys.map Image.core = xs.map Image.core) {k : Nat} {im : Image}
    (hk : xs[k]? = some im) :
    ∃ im', ys[k]? = some im' ∧ im'.id = im.id ∧ im'.length = im.length ∧ im'.position = im.position := by
  have h1 : (ys.map Image.core)[k]? = (xs.map Image.core)[k]? := by rw [h]
  simp only [List.getElem?_map, hk, Option.map_some, Option.map_eq_some_iff] at h1
  obtain ⟨im', hy, hc⟩ := h1
  exact ⟨im', hy, (congrArg Image.id hc :), (congrArg Image.length hc :), (congrArg Image.position hc :)⟩

/-- Settles O19: every command but those of supply and reset is a sequence of moves, and each move of a locked guard keeps
what was loaded. -/
theorem lockHolds : Obligations.LockHolds := by
  refine ⟨fun tag q c s ht hl hq hc => ?_, fun c s t hr hl h h1 h2 h3 h4 => ?_⟩
  · have hresp := respond_lockable q s hl hq
    cases q <;> cases hq <;> cases hc <;> exact answers_of_respond rfl ht hresp
  · have hc : startsOrStops c = false := by
      cases c with
      | powerOn moved => exact absurd rfl (h1 moved)
      | resetTerminal => exact absurd rfl h2
      | resetTerminalRelease moved => exact absurd rfl (h3 moved)
      | supplyRemoved => exact absurd rfl h4
      | _ => rfl
    obtain ⟨e, hi⟩ := (exec_moves hc h).locked hl hr
    have himages : t.images.map Image.core = s.images.map Image.core := congrArg State.images e
    have haudit : t.audit.map AuditEntry.core = s.audit.map AuditEntry.core := congrArg State.audit e
    refine ⟨(congrArg State.locked e).trans hl, (congrArg State.stage e :), (congrArg State.portMap e :),
      (congrArg State.roster e :), (congrArg State.timing e :), inputs_fixed_get (congrArg State.inputs e),
      (congrArg State.windows e :), (congrArg State.recipes e :), (congrArg State.params e :), ?_, fun k im hk => ?_, ?_⟩
    · simpa using congrArg List.length himages
    · obtain ⟨im', hy, hid, hlen, hpos⟩ := image_of_core_eq himages hk
      refine ⟨im', hy, hid, hlen, hpos, fun hcap => ?_⟩
      have := hi s.images (fun _ _ h _ => h) k im hk hcap
      exact Option.some.inj (hy.symm.trans this)
    · have := congrArg (List.map (fun e : AuditEntry => (e.station, e.block, e.length, e.readMode, e.image))) haudit
      simpa only [List.map_map, Function.comp_def, AuditEntry.core] using this

end Sys2Proof.Machine
end

section
/-! SUPPORT. What each configuration request leaves: the guard as it was, or the one table it changes, with its checks
passed. Then the settings invariant, and that every command completes. -/

namespace Sys2Proof.Machine

open Sys2Proof

variable {s t : State}

/-! ### Configuration requests -/

theorem refusedRange_state (s : State) : (refusedRange s).2 = s :=
  (checked_state_cases _ s _).elim id (fun h => h.2)

theorem takeSetPortMap_state_cases (r : PortMapReq) (s : State) :
    (takeSetPortMap r s).2 = s
      ∨ portMapConflict r = false ∧ (takeSetPortMap r s).2 = applyMap (portMapOf r) s := by
  refine (checked_state_cases _ s _).imp id (fun h => ⟨?_, h.2⟩)
  simpa using h.1 (portMapConflict r, .conflict) (by simp)

theorem takeSetStation_state_cases (r : StationReq) (s : State) :
    (takeSetStation r s).2 = s ∨ ∃ (i : Station) (e : RosterEntry), (takeSetStation r s).2 = { s with roster := s.roster.set i e } := by
  unfold takeSetStation
  split
  · exact .inl (refusedRange_state s)
  · exact (checked_state_cases _ s _).imp id (fun h => ⟨_, _, h.2⟩)

theorem takeSetInput_state_cases (r : InputReq) (s : State) :
    (takeSetInput r s).2 = s ∨ ∃ x ms m, (takeSetInput r s).2 = setInputTo x ms m s := by
  unfold takeSetInput
  split
  · exact (checked_state_cases _ s _).imp id (fun h => ⟨_, _, _, h.2⟩)
  · exact .inl (refusedRange_state s)

theorem takeSetTiming_state_cases (u : Timing) (s : State) :
    (takeSetTiming u s).2 = s ∨ (takeSetTiming u s).2 = { s with timing := clampTiming u } :=
  (checked_state_cases _ s _).imp id (fun h => h.2)

theorem takeLoadWindow_state_cases (r : WindowReq) (s : State) :
    (takeLoadWindow r s).2 = s ∨ ∃ w, s.windows.length < Config.windowCapacity
      ∧ (∀ v ∈ s.windows, v.overlaps w = false) ∧ (takeLoadWindow r s).2 = { s with windows := s.windows ++ [w] } := by
  unfold takeLoadWindow
  split
  · exact .inl (refusedRange_state s)
  · next w _ =>
    refine (checked_state_cases _ s _).imp id (fun h => ⟨w, ?_, ?_, h.2⟩)
    · simpa using h.1 (decide (Config.windowCapacity ≤ s.windows.length), .full) (by simp)
    · simpa using h.1 (s.windows.any (fun v => v.overlaps w), .conflict) (by simp)

theorem paramOf_index {r : ParameterReq} {k : Nat} {p : Param} (h : paramOf r = some (k, p)) :
    k < Config.parameterCapacity := by
  simp only [paramOf, Option.bind_eq_bind, Option.bind_eq_some_iff] at h
  obtain ⟨i, -, wide, -, signed, -, clamp, -, h⟩ := h
  split at h
  · next hr => cases h; exact hr.1
  · cases h

theorem takeLoadParameter_state_cases (r : ParameterReq) (s : State) :
    (takeLoadParameter r s).2 = s ∨ ∃ k p, k < Config.parameterCapacity ∧ tableGet s.params k = none
      ∧ (∀ e ∈ s.params, e.2.sharesWord p = false)
      ∧ (takeLoadParameter r s).2 = { s with params := tableSet s.params k p } := by
  unfold takeLoadParameter
  split
  · exact .inl (refusedRange_state s)
  · next k p hp =>
    refine (checked_state_cases _ s _).imp id (fun h => ?_)
    have hrow := h.1 ((tableGet s.params k).isSome || s.params.any (fun e => e.2.sharesWord p), .conflict) (by simp)
    simp only [Bool.or_eq_false_iff, Option.isSome_eq_false_iff, Option.isNone_iff_eq_none, List.any_eq_false,
      Bool.not_eq_true] at hrow
    exact ⟨k, p, paramOf_index hp, hrow.1, hrow.2, h.2⟩

theorem takeLoadImage_state_cases (r : ImageReq) (s : State) :
    (takeLoadImage r s).2 = s ∨ r.id < Config.imageCapacity ∧ 1 ≤ r.length ∧ r.length ≤ 256
      ∧ findImage s.images r.id = none ∧ reservedWords s.images + r.length ≤ Config.storeWords
      ∧ (takeLoadImage r s).2 = { s with images := s.images ++
          [{ id := r.id, length := r.length, position := reservedWords s.images, words := [], capture := none,
             print := none }] } := by
  refine (checked_state_cases _ s _).imp id (fun h => ?_)
  have hrange := h.1 (decide (Config.imageCapacity ≤ r.id ∨ r.length = 0 ∨ 256 < r.length), .range) (by simp)
  have hfree := h.1 ((findImage s.images r.id).isSome, .conflict) (by simp)
  have hfits := h.1 (decide (Config.storeWords < reservedWords s.images + r.length), .full) (by simp)
  simp only [decide_eq_false_iff_not, not_or, Nat.not_le, Nat.not_lt] at hrange hfits
  exact ⟨hrange.1, by omega, hrange.2.2, by simpa using hfree, hfits, h.2⟩

theorem takeLoadImageWords_state_cases (r : ImageWordsReq) (s : State) :
    (takeLoadImageWords r s).2 = s
      ∨ (takeLoadImageWords r s).2 = { s with images := modImage s.images r.id (fun im => im.place r.words) } := by
  unfold takeLoadImageWords
  split
  · exact .inl ((checked_state_cases _ s _).elim id (fun h => h.2))
  · exact (checked_state_cases _ s _).imp id (fun h => h.2)

theorem takeAddAuditEntry_state_cases (r : AuditReq) (s : State) :
    (takeAddAuditEntry r s).2 = s ∨ ∃ e : AuditEntry, s.audit.length < Config.auditCapacity
      ∧ (∀ x ∈ s.audit, ¬ (x.station = e.station ∧ x.block = e.block))
      ∧ (takeAddAuditEntry r s).2 = { s with audit := s.audit ++ [e] } := by
  unfold takeAddAuditEntry
  split
  · exact .inl (refusedRange_state s)
  · next e _ =>
    refine (checked_state_cases _ s _).imp id (fun h => ⟨e, ?_, ?_, h.2⟩)
    · simpa using h.1 (decide (Config.auditCapacity ≤ s.audit.length), .full) (by simp)
    · have := h.1 (s.audit.any (fun x => decide (x.station = e.station) && decide (x.block = e.block)), .conflict)
        (by simp)
      simpa using this

theorem takeLoadRecipe_state_cases (r : RecipeReq) (s : State) :
    (takeLoadRecipe r s).2 = s ∨ ∃ rs, (takeLoadRecipe r s).2 = { s with recipes := rs } := by
  unfold takeLoadRecipe
  split
  · exact .inl (refusedRange_state s)
  · exact (checked_state_cases _ s _).imp id (fun h => ⟨_, h.2⟩)

theorem takeLoadRecipeBlock_state_cases (r : RecipeBlockReq) (s : State) :
    (takeLoadRecipeBlock r s).2 = s ∨ ∃ rs, (takeLoadRecipeBlock r s).2 = { s with recipes := rs } := by
  unfold takeLoadRecipeBlock
  split
  · exact .inl (refusedRange_state s)
  · split
    · exact .inl ((checked_state_cases _ s _).elim id (fun h => h.2))
    · exact (checked_state_cases _ s _).imp id (fun h => ⟨_, h.2⟩)

theorem takeLoadRecipeValue_state_cases (r : RecipeValueReq) (s : State) :
    (takeLoadRecipeValue r s).2 = s ∨ ∃ rs, (takeLoadRecipeValue r s).2 = { s with recipes := rs } := by
  simp only [takeLoadRecipeValue]
  split
  · exact (checked_state_cases _ s _).imp id (fun h => ⟨_, h.2⟩)
  · exact .inl ((checked_state_cases _ s _).elim id (fun h => h.2))

theorem takeSetActiveFormat_state_cases (f : Nat) (s : State) :
    (takeSetActiveFormat f s).2 = s ∨ (takeSetActiveFormat f s).2 = declareFormat f s := by
  unfold takeSetActiveFormat
  split
  · exact .inl ((checked_state_cases _ s _).elim id (fun h => h.2))
  · exact (checked_state_cases _ s _).imp id (fun h => h.2)

theorem takeClearTables_state_cases (s : State) :
    (takeClearTables s).2 = s ∨ (takeClearTables s).2 =
      { s with windows := [], params := [], images := [], audit := [], recipes := [], activeFormat := 0 } :=
  (checked_state_cases _ s _).imp id (fun h => h.2)

theorem takeArm_state_cases (s : State) : (takeArm s).2 = s ∨ (takeArm s).2 = armEffects s := by
  unfold takeArm
  split
  · exact .inl ((checked_state_cases _ s _).elim id (fun h => h.2))
  · exact (checked_state_cases _ s _).imp id (fun h => h.2)

theorem takeDisarm_state_cases (s : State) :
    (takeDisarm s).2 = s ∨ s.locked = false ∧ (takeDisarm s).2 = disarmEffects s := by
  refine (checked_state_cases _ s _).imp id (fun h => ⟨?_, h.2⟩)
  simpa using h.1 (s.locked, .locked) (by simp)

theorem takeRestart_state_cases (s : State) :
    (takeRestart s).2 = s
      ∨ s.locked = false ∧ (takeRestart s).2 = { s with sup := { s.sup with restarting := true } } := by
  refine (checked_state_cases _ s _).imp id (fun h => ⟨?_, h.2⟩)
  simpa using h.1 (s.locked, .locked) (by simp)

theorem takeCapture_state_cases (r : CaptureReq) (s : State) :
    (takeCapture r s).2 = s ∨ ∃ c w, (takeCapture r s).2 = startWork c w
      { s with images := modImage s.images r.image (fun im => { im with capture := some c }) } := by
  unfold takeCapture
  split
  · exact .inl (refusedRange_state s)
  · split
    · exact .inl ((checked_state_cases _ s _).elim id (fun h => h.2))
    · simp only
      split
      · exact .inl ((checked_state_cases _ s _).elim id (fun h => h.2))
      · exact (checked_state_cases _ s _).imp id (fun h => ⟨_, _, h.2⟩)

/-! ### The settings they leave -/

theorem applyMap_settings (m : Vector (Option Station) 8) (s : State) :
    (applyMap m s).settings = State.settings { s with portMap := m } := by
  have h1 := foldl_settings (fun s i => disableStation i s) (fun s i => disableStation_settings i s)
    (allStations.filter s.mapped) s
  have h2 := foldl_settings (fun s i => clearRecord i s) (fun s i => clearRecord_settings i s)
    (allStations.filter s.mapped) ((allStations.filter s.mapped).foldl (fun s i => disableStation i s) s)
  unfold applyMap
  simp only
  rw [foldl_settings (fun s i => enableStation i s) (fun s i => enableStation_settings i s)]
  exact congrArg (fun x : State => { x with portMap := m }) (h2.trans h1)

theorem setInputTo_settings (x : InputId) (ms : Nat) (m : EdgeMode) (s : State) :
    (setInputTo x ms m s).settings
      = (s.setInput x { s.inputs.get x with checkTime := ms, mode := m }).settings := by
  unfold setInputTo
  simp only
  split
  · exact acceptLevel_settings x _
  · rfl

theorem declareFormat_settings (f : Nat) (s : State) : (declareFormat f s).settings = s.settings := by
  refine settings_of_outside ((setFormats_outside _ _ _).trans ?_)
  simp only [State.outside, foldl_tableMod_self _ (fun c p => p.rebase c.2) (fun _ _ => rfl)]

theorem armed_core (e : AuditEntry) (s : State) : (e.armed s).core = e.core := by
  unfold AuditEntry.armed
  simp only
  split
  · rfl
  · rfl
  · rw [resolve_core]; rfl
  · rfl

theorem armEffects_settings (s : State) : (armEffects s).settings = State.settings { s with stage := .guarding } := by
  refine settings_of_outside ?_
  simp only [armEffects, armFormats]
  rw [setSched_outside, setFormats_outside]
  exact mapAudit_outside { s with stage := .guarding } _ (fun e => armed_core e _)

theorem abandonCheck_outside (s : State) : (abandonCheck s).outside = s.outside := by
  unfold abandonCheck
  split
  · exact leave_outside _ _ _
  · rfl

theorem disarmEffects_settings (s : State) :
    (disarmEffects s).settings = State.settings { s with stage := .configure } := by
  have h1 := settings_of_outside (abandonCheck_outside s)
  have h2 : (disarmEffects s).settings = State.settings { abandonCheck s with stage := .configure } := by
    simp only [disarmEffects, State.settings, State.outside, List.map_map]
    rfl
  exact h2.trans (congrArg (fun x : State => { x with stage := .configure }) h1)

end Sys2Proof.Machine
end

section
/-! SUPPORT. The settings invariant, command by command, with the statements that rest on it; then the event queue's and the
releases' invariants. -/

namespace Sys2Proof.Machine

open Sys2Proof

variable {s t : State}

/-! ### The tables stay in order -/

theorem windowsOk_append {ws : List Window} {w : Window} (h : WindowsOk ws)
    (hl : ws.length < Config.windowCapacity) (ho : ∀ v ∈ ws, v.overlaps w = false) : WindowsOk (ws ++ [w]) := by
  refine ⟨List.pairwise_append.mpr ⟨h.1, List.pairwise_singleton _ _, fun v hv x hx => ?_⟩, by simpa using hl⟩
  rw [List.mem_singleton.mp hx]
  exact ho v hv

theorem auditOk_append {es : List AuditEntry} {e : AuditEntry} (h : AuditOk es)
    (hl : es.length < Config.auditCapacity) (hn : ∀ x ∈ es, ¬ (x.station = e.station ∧ x.block = e.block)) :
    AuditOk (es ++ [e]) := by
  refine ⟨List.pairwise_append.mpr ⟨h.1, List.pairwise_singleton _ _, fun v hv x hx => ?_⟩, by simpa using hl⟩
  rw [List.mem_singleton.mp hx]
  exact hn v hv

theorem stacked_append {ims : List Image} {im : Image} {m : Nat} (h : Stacked m ims)
    (hp : im.position = m + reservedWords ims) : Stacked m (ims ++ [im]) := by
  induction ims generalizing m with
  | nil => exact ⟨hp, trivial⟩
  | cons x xs ih =>
    obtain ⟨hx, hxs⟩ := h
    refine ⟨hx, ih hxs ?_⟩
    rw [hp, reservedWords]
    omega

theorem reservedWords_append (xs ys : List Image) : reservedWords (xs ++ ys) = reservedWords xs + reservedWords ys := by
  induction xs with
  | nil => simp [reservedWords]
  | cons x xs ih => simp only [List.cons_append, reservedWords, ih]; omega

theorem findImage_eq_none {ims : List Image} {id : Nat} : findImage ims id = none ↔ ∀ im ∈ ims, im.id ≠ id := by
  simp [findImage]

/-- R112: an image opened behind the words reserved, with an id that is not open. -/
theorem imagesOk_append {ims : List Image} {im : Image} (h : ImagesOk ims) (hid : im.id < Config.imageCapacity)
    (h1 : 1 ≤ im.length) (h2 : im.length ≤ 256) (hfree : findImage ims im.id = none)
    (hp : im.position = reservedWords ims) (hfits : reservedWords ims + im.length ≤ Config.storeWords) :
    ImagesOk (ims ++ [im]) := by
  obtain ⟨hd, hr, hst, -⟩ := h
  refine ⟨List.pairwise_append.mpr ⟨hd, List.pairwise_singleton _ _, fun v hv x hx => ?_⟩, ?_,
    stacked_append hst (by rw [hp, Nat.zero_add]), ?_⟩
  · rw [List.mem_singleton.mp hx]
    exact findImage_eq_none.mp hfree v hv
  · intro x hx
    rcases List.mem_append.mp hx with hx | hx
    · exact hr x hx
    · rw [List.mem_singleton.mp hx]
      exact ⟨hid, h1, h2⟩
  · simpa [reservedWords_append, reservedWords] using hfits

/-- Images that keep what LOAD IMAGE gave them stay in order. -/
theorem imagesOk_modImage {ims : List Image} (h : ImagesOk ims) (id : Nat) (f : Image → Image)
    (hf : ∀ im, (f im).core = im.core) : ImagesOk (modImage ims id f) := by
  rw [← imagesOk_core, map_modImage_self _ _ _ hf, imagesOk_core]
  exact h

theorem clampTiming_idem (u : Timing) : clampTiming (clampTiming u) = clampTiming u := by
  simp only [clampTiming, clampTo, Timing.mk.injEq]
  omega

/-- The settings at a start-up (R158, R168, R169). -/
theorem settingsOk_start (h : t.locked = false) (hr : t.sup.restarting = false) (ht : t.guardTime = 0)
    (htm : t.timing = defaultTiming) (hm : t.portMap = Vector.replicate 8 none) (hw : t.windows = [])
    (hp : t.params = []) (hi : t.images = []) (ha : t.audit = []) : SettingsOk t where
  locked := by simp [h]
  restart := fun h => by simp [hr] at h
  time := by rw [ht]; exact Nat.zero_le _
  timing := by rw [htm]; decide
  portMap := by
    intro p q i hpi
    rw [hm] at hpi
    simp at hpi
  windows := by rw [hw]; exact ⟨List.Pairwise.nil, Nat.zero_le _⟩
  params := by rw [hp]; exact ⟨List.Pairwise.nil, by simp⟩
  images := by rw [hi]; exact ⟨List.Pairwise.nil, by simp, trivial, Nat.zero_le _⟩
  audit := by rw [ha]; exact ⟨List.Pairwise.nil, Nat.zero_le _⟩

theorem settingsOk_startUp (c : ResetCause) (s : State) : SettingsOk (startUp c s) :=
  settingsOk_start rfl rfl rfl rfl rfl rfl rfl rfl rfl

theorem settingsOk_stopped (p : Power) (s : State) : SettingsOk (stopped p s) :=
  settingsOk_start rfl rfl rfl rfl rfl rfl rfl rfl rfl

/-! ### Requests and moves -/

/-- A request taken on the idle link keeps the settings in order; RESTART's place is looked at when its reply begins. -/
theorem respond_settingsOk (q : SupRequest) (h : SettingsOk s) (ha : s.sup.answering = none)
    (hq : q ≠ .restart) : SettingsOk (respond q s).2 := by
  have hr : s.sup.restarting = false := h.restart.not_restarting ha
  have same : ∀ {x : State}, x = s → SettingsOk x := fun e => by rw [e]; exact h
  cases hl : lockable q with
  | false =>
    rcases respond_unlockable q s hl with e | ⟨hg, e⟩
    · exact h.congr e
    · rw [e]
      exact { h with locked := fun _ => hg, restart := fun x => by simp [hr] at x }
  | true =>
    cases q
    case restart => exact absurd rfl hq
    case setPortMap r =>
      rcases takeSetPortMap_state_cases r s with e | ⟨hc, e⟩
      · exact same e
      · have h1 : SettingsOk { s with portMap := portMapOf r } := { h with portMap := portMapOf_ok r hc }
        exact h1.congr ((congrArg _ e).trans (applyMap_settings (portMapOf r) s))
    case setStation r =>
      rcases takeSetStation_state_cases r s with e | ⟨i, x, e⟩
      · exact same e
      · exact e ▸ { h with }
    case setInput r =>
      rcases takeSetInput_state_cases r s with e | ⟨x, ms, m, e⟩
      · exact same e
      · have h1 : SettingsOk (s.setInput x { s.inputs.get x with checkTime := ms, mode := m }) := { h with }
        exact h1.congr ((congrArg _ e).trans (setInputTo_settings x ms m s))
    case setTiming u =>
      rcases takeSetTiming_state_cases u s with e | e
      · exact same e
      · exact e ▸ { h with timing := clampTiming_idem u }
    case loadWindow r =>
      rcases takeLoadWindow_state_cases r s with e | ⟨w, hw, ho, e⟩
      · exact same e
      · exact e ▸ { h with windows := windowsOk_append h.windows hw ho }
    case loadParameter r =>
      rcases takeLoadParameter_state_cases r s with e | ⟨k, p, hk, hf, ho, e⟩
      · exact same e
      · exact e ▸ { h with params := paramsOk_tableSet _ k p hk hf ho h.params }
    case loadImage r =>
      rcases takeLoadImage_state_cases r s with e | ⟨hid, h1, h2, hf, hs, e⟩
      · exact same e
      · exact e ▸ { h with images := imagesOk_append h.images hid h1 h2 hf rfl hs }
    case loadImageWords r =>
      rcases takeLoadImageWords_state_cases r s with e | e
      · exact same e
      · exact e ▸ { h with images := imagesOk_modImage h.images _ _ (fun _ => rfl) }
    case addAuditEntry r =>
      rcases takeAddAuditEntry_state_cases r s with e | ⟨x, hx, hn, e⟩
      · exact same e
      · exact e ▸ { h with audit := auditOk_append h.audit hx hn }
    case loadRecipe r =>
      rcases takeLoadRecipe_state_cases r s with e | ⟨rs, e⟩
      · exact same e
      · exact e ▸ { h with }
    case loadRecipeBlock r =>
      rcases takeLoadRecipeBlock_state_cases r s with e | ⟨rs, e⟩
      · exact same e
      · exact e ▸ { h with }
    case loadRecipeValue r =>
      rcases takeLoadRecipeValue_state_cases r s with e | ⟨rs, e⟩
      · exact same e
      · exact e ▸ { h with }
    case setActiveFormat f =>
      rcases takeSetActiveFormat_state_cases f s with e | e
      · exact same e
      · exact h.congr ((congrArg _ e).trans (declareFormat_settings f s))
    case clearTables =>
      rcases takeClearTables_state_cases s with e | e
      · exact same e
      · have h0 := settingsOk_startUp .power s
        exact e ▸ { h with windows := h0.windows, params := h0.params, images := h0.images, audit := h0.audit }
    case arm =>
      rcases takeArm_state_cases s with e | e
      · exact same e
      · have h1 : SettingsOk { s with stage := .guarding } := { h with locked := fun _ => rfl }
        exact h1.congr ((congrArg _ e).trans (armEffects_settings s))
    case disarm =>
      rcases takeDisarm_state_cases s with e | ⟨hu, e⟩
      · exact same e
      · have h1 : SettingsOk { s with stage := .configure } := { h with locked := fun hx => by simp [hu] at hx }
        exact h1.congr ((congrArg _ e).trans (disarmEffects_settings s))
    case capture r =>
      rcases takeCapture_state_cases r s with e | ⟨c, w, e⟩
      · exact same e
      · have h1 : SettingsOk { s with images := modImage s.images r.image (fun im => { im with capture := some c }) } :=
          { h with images := imagesOk_modImage h.images _ _ (fun _ => rfl) }
        exact h1.congr ((congrArg _ e).trans (startWork_settings c w _))
    all_goals cases hl

theorem takeRequest_settingsOk (tag : Byte) (q : SupRequest) (h : SettingsOk s) (ha : s.sup.answering = none) :
    SettingsOk (takeRequest tag q s) := by
  by_cases hq : q = .restart
  · subst hq
    unfold takeRequest
    simp only [respond]
    rcases takeRestart_state_cases s with e | ⟨hl, e⟩
    · rw [e]
      exact { h with restart := fun x => ⟨by simp [beginReply], (h.restart x).2⟩ }
    · rw [e]
      exact { h with restart := fun _ => ⟨by simp [beginReply], hl⟩ }
  · have h1 := respond_settingsOk q h ha hq
    exact { h1 with restart := fun x => ⟨by simp [takeRequest, beginReply], (h1.restart x).2⟩ }

theorem Move.settingsOk (m : Move s t) (h : SettingsOk s) : SettingsOk t := by
  cases m with
  | keeps hs _ => exact h.congr hs
  | request tag q ha => exact takeRequest_settingsOk tag q h ha
  | sent x _ _ hx => exact { h with restart := fun e => by simp [hx] at e }
  | restart x _ _ => exact settingsOk_startUp _ _
  | second n hn => exact { h with time := hn }

theorem Moves.settingsOk (m : Moves s t) (h : SettingsOk s) : SettingsOk t := by
  induction m with
  | refl => exact h
  | tail _ last ih => exact last.settingsOk ih

/-- What supply and the RESET terminal do: the guard starts up, stops, or goes on with the RESET level at another place. -/
theorem exec_startsOrStops {c : Instr} (hc : startsOrStops c = true) (h : exec c s = .next t) :
    (∃ cause u, t = startUp cause u ∧ u.pending = s.pending) ∨ (∃ p u, t = stopped p u ∧ u.pending = s.pending)
      ∨ t.settings = s.settings := by
  cases c
  case powerOn moved =>
    cases h
    unfold powerOn
    split
    · exact .inr (.inl ⟨_, _, rfl, rfl⟩)
    · exact .inl ⟨_, _, rfl, rfl⟩
  case resetTerminal =>
    cases h
    unfold resetHeldLong
    simp only
    split
    · exact .inr (.inl ⟨_, _, rfl, rfl⟩)
    · exact .inr (.inr rfl)
  case resetTerminalRelease moved =>
    cases h
    unfold resetFalls
    simp only
    split
    · exact .inl ⟨_, _, rfl, rfl⟩
    · exact .inr (.inr rfl)
  case supplyRemoved =>
    cases h
    exact .inr (.inl ⟨_, _, rfl, rfl⟩)
  all_goals cases hc

theorem exec_settingsOk {c : Instr} (h : SettingsOk s) (hx : exec c s = .next t) : SettingsOk t := by
  cases hc : startsOrStops c with
  | false => exact (exec_moves hc hx).settingsOk h
  | true =>
    rcases exec_startsOrStops hc hx with ⟨cause, u, rfl, -⟩ | ⟨p, u, rfl, -⟩ | e
    · exact settingsOk_startUp _ _
    · exact settingsOk_stopped _ _
    · exact h.congr e

/-- Settles O57: each kind of move, and each start and stop of the guard, keeps the settings in order. -/
theorem settingsInvariant : Obligations.SettingsInvariant := by
  intro s t h hs
  unfold step at hs
  split at hs
  · next c rest _ =>
    have h1 : SettingsOk { s with pending := rest } := { h with }
    exact exec_settingsOk h1 hs
  · cases hs
    exact h.congr (passMs_settings 1 s)

end Sys2Proof.Machine
end

section
/-! SUPPORT. Every command completes; the event queue's and the releases' invariants; what reset meets. -/

namespace Sys2Proof.Machine

open Sys2Proof

variable {s t : State}

/-! ### The waiting commands -/

theorem pending_of_settings (h : t.settings = s.settings) : t.pending = s.pending := (congrArg State.pending h :)

theorem respond_pending (q : SupRequest) (s : State) : (respond q s).2.pending = s.pending := by
  have same : ∀ {x : State}, x = s → x.pending = s.pending := fun e => by rw [e]
  have update : ∀ {x y : State}, x = y → y.pending = s.pending → x.pending = s.pending := fun e h => e ▸ h
  cases hl : lockable q with
  | false =>
    rcases respond_unlockable q s hl with e | ⟨-, e⟩
    · exact pending_of_settings e
    · exact update e rfl
  | true =>
    cases q
    case setPortMap r =>
      rcases takeSetPortMap_state_cases r s with e | ⟨-, e⟩
      · exact same e
      · exact update e (congrArg State.pending (applyMap_settings (portMapOf r) s) :)
    case setStation r =>
      rcases takeSetStation_state_cases r s with e | ⟨i, x, e⟩
      · exact same e
      · exact update e rfl
    case setInput r =>
      rcases takeSetInput_state_cases r s with e | ⟨x, ms, m, e⟩
      · exact same e
      · exact update e (congrArg State.pending (setInputTo_settings x ms m s) :)
    case setTiming u => exact (takeSetTiming_state_cases u s).elim same (fun e => update e rfl)
    case loadWindow r =>
      rcases takeLoadWindow_state_cases r s with e | ⟨w, -, -, e⟩
      · exact same e
      · exact update e rfl
    case loadParameter r =>
      rcases takeLoadParameter_state_cases r s with e | ⟨k, p, -, -, -, e⟩
      · exact same e
      · exact update e rfl
    case loadImage r =>
      rcases takeLoadImage_state_cases r s with e | ⟨-, -, -, -, -, e⟩
      · exact same e
      · exact update e rfl
    case loadImageWords r => exact (takeLoadImageWords_state_cases r s).elim same (fun e => update e rfl)
    case addAuditEntry r =>
      rcases takeAddAuditEntry_state_cases r s with e | ⟨x, -, -, e⟩
      · exact same e
      · exact update e rfl
    case loadRecipe r => exact (takeLoadRecipe_state_cases r s).elim same (fun ⟨_, e⟩ => update e rfl)
    case loadRecipeBlock r => exact (takeLoadRecipeBlock_state_cases r s).elim same (fun ⟨_, e⟩ => update e rfl)
    case loadRecipeValue r => exact (takeLoadRecipeValue_state_cases r s).elim same (fun ⟨_, e⟩ => update e rfl)
    case setActiveFormat f =>
      rcases takeSetActiveFormat_state_cases f s with e | e
      · exact same e
      · exact update e (pending_of_settings (declareFormat_settings f s))
    case clearTables => exact (takeClearTables_state_cases s).elim same (fun e => update e rfl)
    case arm =>
      rcases takeArm_state_cases s with e | e
      · exact same e
      · exact update e (congrArg State.pending (armEffects_settings s) :)
    case disarm =>
      rcases takeDisarm_state_cases s with e | ⟨-, e⟩
      · exact same e
      · exact update e (congrArg State.pending (disarmEffects_settings s) :)
    case restart => exact (takeRestart_state_cases s).elim same (fun e => update e.2 rfl)
    case capture r =>
      rcases takeCapture_state_cases r s with e | ⟨c, w, e⟩
      · exact same e
      · have hp := pending_of_settings (startWork_settings c w
          { s with images := modImage s.images r.image (fun im => { im with capture := some c }) })
        exact update e hp
    all_goals cases hl

theorem Move.pending (m : Move s t) : t.pending = s.pending := by
  cases m with
  | keeps hs _ => exact pending_of_settings hs
  | request tag q _ => exact respond_pending q s
  | _ => rfl

theorem Moves.pending (m : Moves s t) : t.pending = s.pending := by
  induction m with
  | refl => rfl
  | tail _ last ih => exact last.pending.trans ih

/-- Settles O2: every command has a next state, and no move, start or stop touches the waiting commands. -/
theorem everyCommandCompletes : Obligations.EveryCommandCompletes := by
  intro c s
  obtain ⟨t, ht⟩ := exec_completes c s
  refine ⟨t, ht, ?_⟩
  cases hc : startsOrStops c with
  | false => exact (exec_moves hc ht).pending
  | true =>
    rcases exec_startsOrStops hc ht with ⟨cause, u, rfl, hu⟩ | ⟨p, u, rfl, hu⟩ | e
    · exact hu
    · exact hu
    · exact pending_of_settings e

/-- Settles O1. -/
theorem stepTakesFrontCommand : Obligations.StepTakesFrontCommand := fun _ _ => rfl

/-! ### The event queue -/

theorem eventsOk_restarted (c : ResetCause) : EventsOk [Event.restarted c] := by
  refine ⟨List.nodup_singleton _, fun e he => ?_⟩
  rw [List.mem_singleton.mp he]
  exact ⟨rfl, Nat.le_refl 1, by simp [Event.restarted]⟩

theorem eventsOk_drop {es : List Event} (n : Nat) (h : EventsOk es) : EventsOk (es.drop n) := by
  refine ⟨?_, fun e he => h.2 e (List.mem_of_mem_drop he)⟩
  rw [List.map_drop]
  exact h.1.sublist (List.drop_sublist _ _)

theorem applyMap_events_kept (r : PortMapReq) (h : EventsOk s.events) : EventsOk (applyMap (portMapOf r) s).events := by
  have k := events_kept
  have h1 : EventsOk ((allStations.filter s.mapped).foldl (fun s i => disableStation i s) s).events :=
    Kept.foldl (P := fun s => EventsOk s.events) (fun _ i h => k.disableStation i h) _ h
  have clear : ∀ (x : State) (l : List Station), (l.foldl (fun s i => clearRecord i s) x).events = x.events := by
    intro x l
    induction l generalizing x with
    | nil => rfl
    | cons i l ih => exact ih (clearRecord i x)
  have enable : ∀ (x : State) (i : Station), EventsOk x.events → EventsOk (enableStation i x).events := by
    intro x i hx
    unfold enableStation startBringUp setStState
    simp only
    split <;> exact hx
  unfold applyMap
  simp only
  refine Kept.foldl (P := fun s => EventsOk s.events) (fun x i hx => enable x i hx) _ ?_
  show EventsOk (List.foldl (fun s i => clearRecord i s) _ _).events
  rw [clear]
  exact h1

theorem events_whole : Whole (fun s => EventsOk s.events) where
  toKept := events_kept
  rest s t _ _ _ he h := he ▸ h
  start c _ := eventsOk_restarted c
  stop _ _ := ⟨List.nodup_nil, by simp [stopped]⟩
  pass n s h := Kept.whenRunning (P := fun s => EventsOk s.events) (fun h => h) h
  map r s _ _ h := applyMap_events_kept r h
  sums _ h := h
  taken _ h := eventsOk_drop 8 h

/-- The 71 keys of section 9.3. -/
def eventKeys : List (Source × EventKind) :=
  (List.finRange 8).flatMap (fun i => [EventKind.linkUp, .linkDown, .quarantined, .unexpectedChange, .drift,
      .relayTrouble].map (fun k => (Source.station i, k)))
    ++ (List.finRange 4).flatMap (fun e => [EventKind.attached, .detached, .refusal, .lockout].map (fun k =>
      (Source.engineering e, k)))
    ++ [InputId.key, .lineRun, .cover].map (fun x => (Source.input x, .inputChange))
    ++ [(Source.controller, .operationDone)]
    ++ (List.finRange 2).map (fun c => (Source.channel c, .accessDone))
    ++ [(Source.guard, .restarted)]

theorem mem_eventKeys {src : Source} {k : EventKind} (h : src.posts k = true) : (src, k) ∈ eventKeys := by
  cases src with
  | input x => cases x <;> cases k <;> simp_all [Source.posts, eventKeys]
  | _ => cases k <;> simp_all [Source.posts, eventKeys]

theorem length_eventKeys : eventKeys.length = 71 := by decide

/-- Settles O58: the keys of the queue are distinct keys of the 71. -/
theorem eventQueueInvariant : Obligations.EventQueueInvariant := by
  refine ⟨fun s t h hs => ?_, fun es h => ?_⟩
  · obtain ⟨u, hu, he⟩ := events_whole.step h
    rw [hs] at hu
    cases hu
    exact he
  · have hsub : es.map Event.key ⊆ eventKeys := by
      intro key hkey
      obtain ⟨e, he, rfl⟩ := List.mem_map.mp hkey
      exact mem_eventKeys (h.2 e he).1
    have := (List.subperm_of_subset h.1 hsub).length_le
    rwa [List.length_map, length_eventKeys] at this

/-! ### Releases -/

theorem releasesSafe_start (h : t.portMap = Vector.replicate 8 none) (hp : ∀ p, t.port p = .start (t.port p).jumper) :
    ReleasesSafe t := by
  refine ⟨fun p q i hpi => ?_, fun p => ?_⟩
  · rw [h] at hpi
    simp at hpi
  · rw [hp p]
    exact ⟨⟨rfl, rfl, rfl⟩, fun hd => by cases hd⟩

theorem startUp_port (c : ResetCause) (s : State) (p : Port) : (startUp c s).port p = .start s.jumperField[p] := by
  simp [startUp, State.port]

theorem stopped_port (w : Power) (s : State) (p : Port) : (stopped w s).port p = .start s.jumperField[p] :=
  startUp_port .power s p

theorem sound_pass {p : InhibitPort} (n : Nat) (h : p.sound) : (p.pass n).sound := by
  unfold InhibitPort.sound at h ⊢
  cases hd : p.driven with
  | asserted =>
    simp only [hd] at h
    obtain ⟨h1, h2, h3⟩ := h
    simp [InhibitPort.pass, hd, h1, h2, h3, runDown]
  | released =>
    simp only [hd] at h
    obtain ⟨h1, h2, h3, ms, h4, h5⟩ := h
    simp only [InhibitPort.pass, hd]
    refine ⟨h1, h2, ?_, ms - n, by simp [runDown, h4], by omega⟩
    cases hm : p.monitor <;> simp_all [Monitor.pass]

theorem releases_pass (n : Nat) (h : ReleasesSafe s) : ReleasesSafe (passMs n s) := by
  refine Kept.whenRunning (P := ReleasesSafe) (fun h => ⟨h.1, fun p => ?_⟩) h
  obtain ⟨hs, ho⟩ := h.2 p
  simp only [State.port, Fin.getElem_fin, Vector.getElem_map]
  exact ⟨sound_pass n hs, ho⟩

theorem releases_sums (h : ReleasesSafe s) :
    ReleasesSafe { s with stations := s.stations.map (fun r => { r with sumUnreliable := false }) } := by
  refine ⟨h.1, fun p => ⟨(h.2 p).1, fun hd => ?_⟩⟩
  obtain ⟨i, hi, hst⟩ := (h.2 p).2 hd
  exact ⟨i, hi, by simpa [State.stn] using hst⟩

theorem releases_whole : Whole ReleasesSafe where
  toKept := releases_kept
  rest s t hm hp hst _ h := h.congr hm hp (fun i => by simp [State.stn, hst])
  start c s := releasesSafe_start rfl (fun p => by rw [startUp_port]; rfl)
  stop w s := releasesSafe_start rfl (fun p => by rw [stopped_port]; rfl)
  pass n _ h := releases_pass n h
  map r _ _ hc h := releases_applyMap _ (portMapOf_ok r hc) h
  sums _ h := releases_sums h
  taken _ h := h

/-- Settles O59: the release invariant is kept by every elementary update, by start-up and by time. -/
theorem releaseInvariant : Obligations.ReleaseInvariant := by
  intro s t hm hr hs
  obtain ⟨u, hu, h⟩ := releases_whole.step (s := s) ⟨hm, hr⟩
  rw [hs] at hu
  cases hu
  exact h

/-- Settles O60: the state after reset is one that a start-up leaves. -/
theorem resetMeetsInvariants : Obligations.ResetMeetsInvariants := by
  have hr : ReleasesSafe State.reset := releasesSafe_start rfl (fun p => by simp [State.reset, State.port, InhibitPort.start])
  exact ⟨settingsOk_start rfl rfl rfl rfl rfl rfl rfl rfl rfl, eventsOk_restarted .power, hr.1, hr.2⟩

end Sys2Proof.Machine
end

section
/-! SUPPORT. A refused request leaves the guard as it was, request by request. -/

namespace Sys2Proof.Machine

open Sys2Proof

variable {s : State}

/-- What a request answers with REFUSED leaves the guard as it was. -/
def Taken.clean (s : State) (a : Taken) : Prop := a.1.status = .refused → a.2 = s

theorem clean_same (r : Response) (s : State) : Taken.clean s (r, s) := fun _ => rfl

theorem clean_ok (body : ReplyBody) (s t : State) : Taken.clean s (.ok body, t) := fun h => by cases h

theorem clean_adjusted (body : ReplyBody) (s t : State) : Taken.clean s (.adjusted body, t) := fun h => by cases h

theorem clean_checked (rows : List CheckRow) {a : Taken} (ha : a.clean s) : (checked rows s a).clean s := by
  rcases checked_cases rows s a with ⟨r, h⟩ | ⟨-, h⟩
  · rw [h]
    exact clean_same _ s
  · rw [h]
    exact ha

theorem clean_controllerChecked (row : ChState → Option Reason) {a : Taken} (ha : a.clean s) :
    (controllerChecked row s a).clean s := by
  rcases controllerChecked_cases row s a with ⟨r, h⟩ | h
  · rw [h]
    exact clean_same _ s
  · rw [h]
    exact ha

theorem clean_refusedRange (s : State) : (refusedRange s).clean s := clean_checked _ (clean_same _ s)

/-- Settles O20: each request is a table of checks before an answer that is not REFUSED. -/
theorem refusalChangesNothing : Obligations.RefusalChangesNothing := by
  intro q s
  suffices h : (respond q s).clean s from h
  cases q
  case setPortMap r => exact clean_checked _ (clean_ok _ s _)
  case setStation r =>
    simp only [respond, takeSetStation]
    split
    · exact clean_refusedRange s
    · exact clean_checked _ (clean_ok _ s _)
  case setInput r =>
    simp only [respond, takeSetInput]
    split
    · refine clean_checked _ ?_
      split
      · exact clean_ok _ s _
      · exact clean_adjusted _ s _
    · exact clean_refusedRange s
  case setTiming u =>
    refine clean_checked _ ?_
    split
    · exact clean_ok _ s _
    · exact clean_adjusted _ s _
  case loadWindow r =>
    simp only [respond, takeLoadWindow]
    split
    · exact clean_refusedRange s
    · exact clean_checked _ (clean_ok _ s _)
  case loadParameter r =>
    simp only [respond, takeLoadParameter]
    split
    · exact clean_refusedRange s
    · exact clean_checked _ (clean_ok _ s _)
  case loadImage r => exact clean_checked _ (clean_ok _ s _)
  case loadImageWords r =>
    simp only [respond, takeLoadImageWords]
    split
    · exact clean_checked _ (clean_same _ s)
    · exact clean_checked _ (clean_ok _ s _)
  case addAuditEntry r =>
    simp only [respond, takeAddAuditEntry]
    split
    · exact clean_refusedRange s
    · exact clean_checked _ (clean_ok _ s _)
  case loadRecipe r =>
    simp only [respond, takeLoadRecipe]
    split
    · exact clean_refusedRange s
    · exact clean_checked _ (clean_ok _ s _)
  case loadRecipeBlock r =>
    simp only [respond, takeLoadRecipeBlock]
    split
    · exact clean_refusedRange s
    · split
      · exact clean_checked _ (clean_same _ s)
      · exact clean_checked _ (clean_ok _ s _)
  case loadRecipeValue r =>
    simp only [respond, takeLoadRecipeValue]
    split
    · exact clean_checked _ (clean_ok _ s _)
    · exact clean_checked _ (clean_same _ s)
  case setActiveFormat f =>
    refine clean_checked _ ?_
    split
    · exact clean_same _ s
    · exact clean_ok _ s _
  case clearTables => exact clean_checked _ (clean_ok _ s _)
  case arm =>
    refine clean_checked _ ?_
    split
    · exact clean_same _ s
    · exact clean_ok _ s _
  case disarm => exact clean_checked _ (clean_ok _ s _)
  case lock => exact clean_checked _ (clean_ok _ s _)
  case restart => exact clean_checked _ (clean_ok _ s _)
  case status => exact clean_same _ s
  case readStation n => exact fun _ => (takeReports_state s n).1
  case readParameter n => exact fun _ => (takeReports_state s n).2.1
  case readAuditEntry n => exact fun _ => (takeReports_state s n).2.2
  case takeEvents => exact clean_ok _ s _
  case ackDrift k =>
    simp only [respond, takeAckDrift]
    (repeat' split) <;> first | exact clean_same _ s | exact clean_ok _ s _
  case auditNow n =>
    simp only [respond, takeAuditNow]
    split
    · exact clean_same _ s
    · exact clean_checked _ (clean_ok _ s _)
  case releaseStation n =>
    simp only [respond, takeReleaseStation]
    split
    · exact clean_same _ s
    · exact clean_checked _ (clean_ok _ s _)
  case directRead r =>
    simp only [respond, takeDirectRead]
    split
    · exact clean_same _ s
    · split
      · exact clean_checked _ (clean_same _ s)
      · exact clean_checked _ (clean_ok _ s _)
  case capture r =>
    simp only [respond, takeCapture]
    split
    · exact clean_refusedRange s
    · split
      · exact clean_checked _ (clean_same _ s)
      · split
        · exact clean_checked _ (clean_same _ s)
        · exact clean_checked _ (clean_ok _ s _)
  case takeAccessResult n =>
    simp only [respond, takeAccessResult]
    split
    · exact clean_same _ s
    · split
      · exact clean_ok _ s _
      · exact clean_same _ s
  case openChangeover f =>
    simp only [respond, takeOpen]
    split
    · refine clean_controllerChecked _ ?_
      simp only [openChecked]
      (repeat' split) <;> first | exact clean_same _ s | exact clean_ok _ s _
    · exact clean_same _ s
  case applyChangeover =>
    refine clean_controllerChecked _ ?_
    split
    · exact clean_same _ s
    · exact clean_ok _ s _
  case cancelChangeover => exact clean_controllerChecked _ (clean_ok _ s _)
  case revertChangeover =>
    refine clean_controllerChecked _ ?_
    (repeat' split) <;> first | exact clean_same _ s | exact clean_ok _ s _
  case closeChangeover => exact clean_controllerChecked _ (clean_ok _ s _)
  case restoreBlock k =>
    simp only [respond, takeRestore]
    split
    · refine clean_controllerChecked _ ?_
      unfold restoreChecked
      split
      · exact clean_same _ s
      · exact clean_checked _ (clean_ok _ s _)
    · exact clean_same _ s
  case badRecord => exact clean_same _ s

end Sys2Proof.Machine
end

section
/-! SUPPORT. The configuration requests: what each answers and leaves, in CONFIGURE with the lock flag clear. -/

namespace Sys2Proof.Machine

open Sys2Proof

variable {s t : State} {tag : Byte}

/-! ### Fields in their ranges -/

/-- A configuring guard takes requests. -/
theorem State.configuring.taken (h : s.configuring) : s.taking := h.1

theorem clampTo_zero (n : Nat) : clampTo 0 1000 n = min n 1000 := by simp [clampTo]

theorem rosterOf_eq_some {r : StationReq} {i : Station} {name : List Byte} {required : Bool} {cls : Cls}
    (hi : stationOf r.station = some i) (hn : nameOf 12 r.name = some name) (hq : secondOf r.required = some required)
    (hc : clsOf r.defaultClass = some cls)
    (h : r.ceiling.getD 0 ≤ 4 ∧ 5 ≤ r.replyTimeout ∧ r.replyTimeout ≤ 250 ∧ r.releaseSettle ≤ 200) :
    rosterOf r = some (i,
      { name := name, maker := r.maker, model := r.model, serial := r.serial, ceiling := r.ceiling,
        replyTimeout := r.replyTimeout, releaseSettle := r.releaseSettle, required := required, defaultClass := cls }) := by
  simp only [rosterOf, hi, hn, hq, hc, Option.bind_eq_bind, Option.bind_some, if_pos h]

theorem rosterOf_eq_none {r : StationReq} (h : stationOf r.station = none ∨ nameOf 12 r.name = none
    ∨ secondOf r.required = none ∨ clsOf r.defaultClass = none ∨ 4 < r.ceiling.getD 0 ∨ r.replyTimeout < 5
    ∨ 250 < r.replyTimeout ∨ 200 < r.releaseSettle) : rosterOf r = none := by
  cases hr : rosterOf r with
  | none => rfl
  | some x =>
    simp only [rosterOf, Option.bind_eq_bind, Option.bind_eq_some_iff] at hr
    obtain ⟨i, hi, name, hn, required, hq, cls, hc, hif⟩ := hr
    split at hif
    · simp only [hi, hn, hq, hc, reduceCtorEq, false_or] at h
      omega
    · cases hif

/-- Settles O7. -/
theorem rosterAndTimingSet : Obligations.RosterAndTimingSet := by
  refine ⟨fun tag r s i name required cls h hi hn hq hc h1 h2 h3 h4 => ?_, fun tag r s h hr => ?_,
    fun tag r u s h hu => ?_⟩
  · refine answers_of_respond rfl h.taken ?_
    have hr := rosterOf_eq_some hi hn hq hc ⟨h1, h2, h3, h4⟩
    simp only [respond, takeSetStation, hr]
    exact checked_configRows h _
  · refine answers_of_respond rfl h.taken ?_
    simp only [respond, takeSetStation, rosterOf_eq_none hr]
    exact refusedRange_of_configuring h
  · refine answers_of_respond rfl h.taken ?_
    have hc : clampTiming r = u := by
      rw [hu]
      simp only [clampTiming, clampTo_zero]
      rfl
    simp only [respond, takeSetTiming, hc]
    exact checked_configRows h _

/-! ### SET INPUT -/

theorem nearestCheckTime_mem (n : Nat) : nearestCheckTime n ∈ [0, 2, 8, 32, 128, 512] := by
  unfold nearestCheckTime
  (repeat' split) <;> simp

theorem nearestCheckTime_nearest (n : Nat) (v : Int) (hv : v ∈ [0, 2, 8, 32, 128, 512]) :
    |(n : Int) - nearestCheckTime n| ≤ |(n : Int) - v|
      ∧ (|(n : Int) - nearestCheckTime n| = |(n : Int) - v| → v ≤ nearestCheckTime n) := by
  have hw := nearestCheckTime_mem n
  have hn : n < 1 ∧ nearestCheckTime n = 0 ∨ 1 ≤ n ∧ n < 5 ∧ nearestCheckTime n = 2
      ∨ 5 ≤ n ∧ n < 20 ∧ nearestCheckTime n = 8 ∨ 20 ≤ n ∧ n < 80 ∧ nearestCheckTime n = 32
      ∨ 80 ≤ n ∧ n < 320 ∧ nearestCheckTime n = 128 ∨ 320 ≤ n ∧ nearestCheckTime n = 512 := by
    unfold nearestCheckTime
    (repeat' split) <;> omega
  generalize nearestCheckTime n = w at hn
  simp only [List.mem_cons, List.not_mem_nil, or_false] at hv
  rcases abs_cases ((n : Int) - w) with h1 | h1 <;> rcases abs_cases ((n : Int) - v) with h2 | h2 <;> omega

theorem setInput_set (x : InputId) (a b : InputRec) (s : State) : (s.setInput x a).setInput x b = s.setInput x b := by
  cases x <;> rfl

/-- A failure from outside is nothing to a controller that is not APPLYING (R147). -/
theorem failFromOutside_of_not_applying (f : Failure) (h : s.changeover.state ≠ .applying) : failFromOutside f s = s :=
  if_neg h

theorem reports_iff (m : EdgeMode) (level : Bool) :
    m.reports level = true ↔ m = .both ∨ (m = .rise ∧ level = true) ∨ (m = .fall ∧ level = false) := by
  cases m <;> simp [EdgeMode.reports]

/-- An accepted level with the controller not APPLYING (R33, R35). -/
theorem acceptLevel_of_not_applying (x : InputId) (s : State) (h : s.changeover.state ≠ .applying) :
    acceptLevel x s =
      let r := s.inputs.get x
      let t := s.setInput x { r with accepted := r.raw }
      if r.mode.reports r.raw = true then post (.input x) (.inputChange r.raw) t else t := by
  have hout : ∀ (f : Failure) (t : State), t.changeover = s.changeover → failFromOutside f t = t := fun f t ht =>
    failFromOutside_of_not_applying f (by rw [ht]; exact h)
  unfold acceptLevel
  simp only
  have hch : (if (s.inputs.get x).mode.reports (s.inputs.get x).raw = true then
      post (.input x) (.inputChange (s.inputs.get x).raw)
        (s.setInput x { s.inputs.get x with accepted := (s.inputs.get x).raw })
      else s.setInput x { s.inputs.get x with accepted := (s.inputs.get x).raw }).changeover = s.changeover := by
    split <;> rfl
  split
  · exact hout _ _ hch
  · exact hout _ _ hch
  · rfl

/-- Settles O8: the nearest check time by cases, then SET INPUT with and without an acceptance. -/
theorem inputSet : Obligations.InputSet := by
  refine ⟨fun n => ⟨nearestCheckTime_mem n, fun v hv => nearestCheckTime_nearest n v hv⟩,
    fun tag r s x m ms h hidle hx hm hms => ?_⟩
  have answered : ∀ t, setInputTo x ms m s = t → Answers (.setInput tag r) tag s
      (if ms = r.checkTime then .ok .none else .adjusted (.checkTime ms)) t := by
    intro t ht
    refine answers_of_respond rfl h.taken ?_
    simp only [respond, takeSetInput, hx, hm, ← hms, ht]
    exact checked_configRows h _
  refine ⟨fun hraw => answered _ ?_, fun hraw hheld => answered _ ?_⟩
  · unfold setInputTo
    refine if_neg ?_
    rintro ⟨h1, h2⟩
    rcases hraw with e | e
    · exact h1 e
    · exact absurd h2 (Nat.not_le.mpr e)
  · unfold setInputTo
    simp only
    rw [if_pos ⟨hraw, hheld⟩, acceptLevel_of_not_applying x _ (by simp [hidle])]
    simp only [inputs_get_setInput_self, setInput_set, reports_iff]

end Sys2Proof.Machine
end

section
/-! SUPPORT. LOAD WINDOW, LOAD PARAMETER, LOAD IMAGE and its words, ADD AUDIT ENTRY, CLEAR TABLES. -/

namespace Sys2Proof.Machine

open Sys2Proof

variable {s t : State} {tag : Byte}

theorem checked_pass {b : Bool} {r : Reason} {rows : List CheckRow} {a : Taken} (h : b = false) :
    checked ((b, r) :: rows) s a = checked rows s a := by
  rw [h]
  rfl

theorem checked_fail {b : Bool} {r : Reason} {rows : List CheckRow} {a : Taken} (h : b = true) :
    checked ((b, r) :: rows) s a = (.refused r, s) := by
  rw [h]
  rfl

/-! ### Windows -/

theorem windowOf_eq_some {r : WindowReq} {i : Station} {c : Cls} (hi : stationOf r.station = some i)
    (hc : clsOf r.cls = some c) (h : r.last ≤ 1023 ∧ r.first ≤ r.last) :
    windowOf r = some { station := i, first := r.first, last := r.last, cls := c } := by
  simp only [windowOf, hi, hc, Option.bind_eq_bind, Option.bind_some, if_pos h]

theorem windowOf_eq_none {r : WindowReq} (h : stationOf r.station = none ∨ clsOf r.cls = none ∨ r.last < r.first
    ∨ 1023 < r.last) : windowOf r = none := by
  cases hr : windowOf r with
  | none => rfl
  | some w =>
    simp only [windowOf, Option.bind_eq_bind, Option.bind_eq_some_iff] at hr
    obtain ⟨i, hi, c, hc, hif⟩ := hr
    split at hif
    · simp only [hi, hc, reduceCtorEq, false_or] at h
      omega
    · cases hif

theorem overlaps_iff (v w : Window) :
    v.overlaps w = true ↔ v.station = w.station ∧ v.first ≤ w.last ∧ w.first ≤ v.last := by
  simp [Window.overlaps, and_assoc]

theorem covers_iff (w : Window) (i : Station) (b : Nat) :
    w.covers i b = true ↔ w.station = i ∧ w.first ≤ b ∧ b ≤ w.last := by
  simp [Window.covers, and_assoc]

/-- A block outside every window has its station's default class (R42). -/
theorem classOf_uncovered {ws : List Window} {ro : Vector RosterEntry 8} {i : Station} {b : Nat}
    (h : ∀ w ∈ ws, ¬ (w.station = i ∧ w.first ≤ b ∧ b ≤ w.last)) : classOf ws ro i b = ro[i].defaultClass := by
  have hn : ws.find? (fun w => w.covers i b) = none := by
    rw [List.find?_eq_none]
    exact fun w hw hc => h w hw ((covers_iff w i b).mp hc)
  simp only [classOf, hn]

/-- A window added behind a table that it does not overlap gives its class to its blocks and to no other (R42). -/
theorem classOf_append {ws : List Window} {w : Window} {ro : Vector RosterEntry 8} {i : Station} {b : Nat}
    (h : WindowsOk (ws ++ [w])) :
    classOf (ws ++ [w]) ro i b
      = if w.station = i ∧ w.first ≤ b ∧ b ≤ w.last then w.cls else classOf ws ro i b := by
  unfold classOf
  rw [List.find?_append]
  by_cases hw : w.station = i ∧ w.first ≤ b ∧ b ≤ w.last
  · have hn : ws.find? (fun v => v.covers i b) = none := by
      rw [List.find?_eq_none]
      intro v hv hc
      obtain ⟨hs, hf, hl⟩ := (covers_iff v i b).mp hc
      have := (List.pairwise_append.mp h.1).2.2 v hv w (List.mem_singleton_self w)
      have ho : v.overlaps w = true := (overlaps_iff v w).mpr ⟨hs.trans hw.1.symm, by omega, by omega⟩
      rw [this] at ho
      cases ho
    have hc := (covers_iff w i b).mpr hw
    simp [hn, hc, hw]
  · have hc : w.covers i b = false := by
      rw [Bool.eq_false_iff]
      exact fun hc => hw ((covers_iff w i b).mp hc)
    rw [if_neg hw]
    simp [hc]

/-- Settles O9: LOAD WINDOW's table of checks, and the lookup behind it. -/
theorem windowsLoadAndClassify : Obligations.WindowsLoadAndClassify := by
  refine ⟨fun tag r s i c h hi hc hf hl => ?_, fun tag r s h hr => ?_, fun ws w ro i b h => classOf_append h,
    fun ws ro i b h => classOf_uncovered h⟩
  · have hw := windowOf_eq_some hi hc ⟨hl, hf⟩
    have hany : (s.windows.any (fun v => v.overlaps
        { station := i, first := r.first, last := r.last, cls := c }) = true)
        ↔ ∃ w ∈ s.windows, w.station = i ∧ w.first ≤ r.last ∧ r.first ≤ w.last := by
      simp only [List.any_eq_true, overlaps_iff]
    refine ⟨fun hlt hno => ?_, fun hfull => ?_, fun hlt ho => ?_⟩ <;>
      refine answers_of_respond rfl h.taken ?_ <;>
      simp only [respond, takeLoadWindow, hw, checked_config h]
    · exact (checked_pass (decide_eq_false (Nat.not_le.mpr hlt))).trans
        (checked_pass (Bool.eq_false_iff.mpr (mt hany.mp hno)))
    · exact checked_fail (decide_eq_true hfull)
    · exact (checked_pass (decide_eq_false (Nat.not_le.mpr hlt))).trans (checked_fail (hany.mpr ho))
  · refine answers_of_respond rfl h.taken ?_
    simp only [respond, takeLoadWindow, windowOf_eq_none hr]
    exact refusedRange_of_configuring h

/-! ### Parameters -/

/-- What LOAD PARAMETER gives is the request's fields, sound, at the request's index (R53). -/
theorem paramOf_eq_some_iff {r : ParameterReq} {k : Nat} {p : Param} : paramOf r = some (k, p) ↔
    ∃ i wide signed clamp, stationOf r.station = some i ∧ secondOf r.width = some wide ∧ secondOf r.kind = some signed
      ∧ secondOf r.mode = some clamp ∧ r.index < Config.parameterCapacity ∧ p.sound = true ∧ k = r.index
      ∧ p = { station := i, block := r.block, offset := r.offset, wide := wide, signed := signed,
              hmin := valueOf signed r.hmin, hmax := valueOf signed r.hmax, defaultBase := valueOf signed r.defaultBase,
              base := valueOf signed r.defaultBase, current := valueOf signed r.current, low := r.low, high := r.high,
              step := r.step, grain := r.grain.getD 1, clamp := clamp, budget := r.budget, window := none } := by
  simp only [paramOf, Option.bind_eq_bind, Option.bind_eq_some_iff, Option.ite_none_right_eq_some, Option.some.injEq,
    Prod.mk.injEq]
  constructor
  · rintro ⟨i, hi, wide, hw, signed, hs, clamp, hc, ⟨hx, hp⟩, rfl, rfl⟩
    exact ⟨i, wide, signed, clamp, hi, hw, hs, hc, hx, hp, rfl, rfl⟩
  · rintro ⟨i, wide, signed, clamp, hi, hw, hs, hc, hx, hp, rfl, rfl⟩
    exact ⟨i, hi, wide, hw, signed, hs, clamp, hc, ⟨hx, hp⟩, rfl, rfl⟩

/-- LOAD PARAMETER's answer for an entry that its fields give (R53). -/
theorem respond_loadParameter {r : ParameterReq} {k : Nat} {p : Param} (h : s.configuring) (hp : paramOf r = some (k, p)) :
    respond (.loadParameter r) s
      = if tableGet s.params k ≠ none ∨ ∃ e ∈ s.params, e.2.sharesWord p = true then (.refused .conflict, s)
        else (.ok .none, { s with params := tableSet s.params k p }) := by
  have hrow : ((tableGet s.params k).isSome || s.params.any (fun e => e.2.sharesWord p)) = true
      ↔ tableGet s.params k ≠ none ∨ ∃ e ∈ s.params, e.2.sharesWord p = true := by
    rw [Bool.or_eq_true, Option.isSome_iff_ne_none, List.any_eq_true]
  simp only [respond, takeLoadParameter, hp, checked_config h, checked_cons, checked_nil, hrow]

theorem answers_loadParameter_range {r : ParameterReq} (h : s.configuring) (hp : paramOf r = none) :
    Answers (.loadParameter tag r) tag s (.refused .range) s := by
  refine answers_of_respond rfl h.taken ?_
  simp only [respond, takeLoadParameter, hp]
  exact refusedRange_of_configuring h

theorem budgetInRange_iff (b : Option (Nat × Nat)) : budgetInRange b = true ↔
    ∀ k minutes, b = some (k, minutes) → 1 ≤ k ∧ k ≤ 255 ∧ 1 ≤ minutes ∧ minutes ≤ 1440 := by
  cases b with
  | none => simp [budgetInRange]
  | some x => obtain ⟨k, minutes⟩ := x; simp [budgetInRange, and_assoc]

theorem getD_zero_le_iff (x : Option Nat) (top : Nat) : x.getD 0 ≤ top ↔ ∀ n, x = some n → n ≤ top := by
  cases x <;> simp

/-- The conditions of `Param.sound`, those of R52 and R53. -/
theorem sound_iff (p : Param) : p.sound = true ↔
    p.block ≤ 1023 ∧ p.offset + p.width ≤ 256 ∧ 1 ≤ p.grain ∧ p.grain ≤ 65535
      ∧ (∀ k minutes, p.budget = some (k, minutes) → 1 ≤ k ∧ k ≤ 255 ∧ 1 ≤ minutes ∧ minutes ≤ 1440)
      ∧ p.low ≤ widthMax p.wide ∧ p.high ≤ widthMax p.wide ∧ (∀ n, p.step = some n → n ≤ widthMax p.wide)
      ∧ kindMin p.wide p.signed ≤ p.hmin ∧ p.hmin ≤ p.hmax ∧ p.hmax ≤ kindMax p.wide p.signed
      ∧ p.hmin ≤ p.defaultBase ∧ p.defaultBase ≤ p.hmax ∧ p.lo ≤ p.current ∧ p.current ≤ p.hi
      ∧ (p.grain : Int) ∣ p.current - p.base := by
  simp only [Param.sound, between, Bool.and_eq_true, decide_eq_true_eq, budgetInRange_iff, getD_zero_le_iff,
    Int.dvd_iff_emod_eq_zero, and_assoc]

/-- Settles O10: LOAD PARAMETER's table of checks; the ranges of R53 are the conditions of `Param.sound`. -/
theorem parameterLoaded : Obligations.ParameterLoaded := by
  refine ⟨fun tag r s k p h hp hfree hwords => ?_, fun tag r s k p h hp hused => ?_,
    fun tag r s h hp => answers_loadParameter_range h hp, fun tag r s h hr => ?_,
    fun tag r s i wide signed clamp h hi hw hs hc => ?_⟩
  · obtain ⟨i, wide, signed, clamp, -, -, -, -, -, -, hk, hpe⟩ := paramOf_eq_some_iff.mp hp
    refine ⟨hk, by rw [hpe], by rw [hpe], { s with params := tableSet s.params k p }, ?_,
      tableGet_tableSet_self _ _ _, fun j hj => tableGet_tableSet_ne _ _ _ _ (Ne.symm hj), rfl⟩
    refine answers_of_respond rfl h.taken ?_
    rw [respond_loadParameter h hp, if_neg]
    rintro (hg | ⟨e, he, hsh⟩)
    · exact hg hfree
    · rw [hwords e he] at hsh
      cases hsh
  · refine answers_of_respond rfl h.taken ?_
    rw [respond_loadParameter h hp, if_pos hused]
  · refine answers_loadParameter_range h ?_
    cases hp : paramOf r with
    | none => rfl
    | some x =>
      obtain ⟨i, wide, signed, clamp, hi, hw, hs, hc, -⟩ := paramOf_eq_some_iff.mp hp
      simp [hi, hw, hs, hc] at hr
  · intro g top b c hmin hmax inRange
    let p : Param :=
      { station := i, block := r.block, offset := r.offset, wide := wide, signed := signed, hmin := hmin, hmax := hmax,
        defaultBase := b, base := b, current := c, low := r.low, high := r.high, step := r.step, grain := g,
        clamp := clamp, budget := r.budget, window := none }
    have hsound : r.index < Config.parameterCapacity ∧ p.sound = true ↔ inRange := by
      rw [sound_iff]
      exact and_congr Nat.lt_succ_iff Iff.rfl
    refine ⟨fun hin => ?_, fun hout => answers_loadParameter_range h ?_⟩
    · obtain ⟨hx, hp⟩ := hsound.mpr hin
      exact paramOf_eq_some_iff.mpr ⟨i, wide, signed, clamp, hi, hw, hs, hc, hx, hp, rfl, rfl⟩
    · cases hp : paramOf r with
      | none => rfl
      | some x =>
        obtain ⟨i', wide', signed', clamp', hi', hw', hs', hc', hx, hp', -, hpe⟩ := paramOf_eq_some_iff.mp hp
        cases hi.symm.trans hi'
        cases hw.symm.trans hw'
        cases hs.symm.trans hs'
        cases hc.symm.trans hc'
        rw [hpe] at hp'
        exact absurd (hsound.mp ⟨hx, hp'⟩) hout

/-! ### Images, audit entries, CLEAR TABLES -/

theorem modImage_append (xs ys : List Image) (id : Nat) (f : Image → Image) :
    modImage (xs ++ ys) id f = modImage xs id f ++ modImage ys id f := List.map_append

theorem modImage_of_ne {xs : List Image} {id : Nat} (f : Image → Image) (h : ∀ x ∈ xs, x.id ≠ id) :
    modImage xs id f = xs := by
  unfold modImage
  rw [List.map_congr_left (fun x hx => if_neg (h x hx))]
  exact List.map_id xs

/-- Settles O11: the piece goes to the one image of its id. -/
theorem imagesLoaded : Obligations.ImagesLoaded := by
  refine ⟨fun tag r s h hid h1 h2 hfree hfits => ?_,
    fun tag r s before after im h hsplit hother hid hcap hc1 hc2 hlen hcapture hoff => ?_⟩
  · refine answers_of_respond rfl h.taken ?_
    have hrange : ¬ (Config.imageCapacity ≤ r.id ∨ r.length = 0 ∨ 256 < r.length) := by
      rw [show Config.imageCapacity = 160 from rfl]
      omega
    simp only [respond, takeLoadImage, checked_config h]
    exact (checked_pass (decide_eq_false hrange)).trans ((checked_pass (by rw [hfree]; rfl)).trans
      (checked_pass (decide_eq_false (Nat.not_lt.mpr hfits))))
  · simp only [List.all_eq_true, decide_eq_true_eq, List.mem_append] at hother
    have hb : ∀ x ∈ before, x.id ≠ r.id := fun x hx => hid ▸ hother x (Or.inl hx)
    have ha : ∀ x ∈ after, x.id ≠ r.id := fun x hx => hid ▸ hother x (Or.inr hx)
    have hfind : findImage s.images r.id = some im := by
      have hn : before.find? (fun x => decide (x.id = r.id)) = none := by
        rw [List.find?_eq_none]
        exact fun x hx he => hb x hx (by simpa using he)
      rw [findImage, hsplit, List.find?_append, hn, Option.none_or]
      exact List.find?_cons_of_pos (decide_eq_true hid.symm)
    have hrange : imageWordsInRange r = true := by
      have hcap' : r.id < Config.imageCapacity := hid.trans_lt hcap
      simp [imageWordsInRange, hcap', hoff, hc1, hc2, hlen]
    have hplace : modImage s.images r.id (fun im => im.place r.words) = before ++ im.place r.words :: after := by
      rw [hsplit, modImage_append, modImage_of_ne _ hb]
      show before ++ (if im.id = r.id then im.place r.words else im) :: modImage after r.id _ = _
      rw [if_pos hid.symm, modImage_of_ne _ ha]
    refine ⟨fun ho hfit => ?_, fun ho => ?_, fun ho hfit => ?_⟩ <;>
      refine answers_of_respond rfl h.taken ?_ <;>
      simp only [respond, takeLoadImageWords, hfind, checked_config h, checked_cons, hrange, hcapture, Bool.not_true,
        Bool.false_eq_true, if_false, Option.isSome_none, decide_eq_true_eq]
    · have hl : (im.words ++ r.words).length = r.offset + r.count := by rw [List.length_append, hlen, ho]
      rw [if_neg (fun hne => hne ho), if_neg (Nat.not_lt.mpr hfit), checked_nil, hplace]
      simp only [Image.place, hl, hcapture]
    · rw [if_pos ho]
    · rw [if_neg (fun hne => hne ho), if_pos hfit]

/-- Settles O12. -/
theorem auditEntryAdded : Obligations.AuditEntryAdded := by
  intro tag r s i readMode h hi hm hb h1 h2 him
  have he : auditEntryOf r = some
      { station := i, block := r.block, length := r.length, readMode := readMode, image := r.image, cls := none,
        resolved := none, expected := none, state := .unchecked, lastCheck := none, lastOutcome := none,
        drift := none } := by
    simp only [auditEntryOf, hi, hm, Option.bind_eq_bind, Option.bind_some]
    exact if_pos ⟨hb, h1, h2, him⟩
  have hany : (s.audit.any (fun x => decide (x.station = i) && decide (x.block = r.block)) = true)
      ↔ ∃ e ∈ s.audit, e.station = i ∧ e.block = r.block := by
    simp only [List.any_eq_true, Bool.and_eq_true, decide_eq_true_eq]
  refine ⟨fun hlt hno => ?_, fun hfull => ?_, fun hlt hlisted => ?_⟩ <;>
    refine answers_of_respond rfl h.taken ?_ <;>
    simp only [respond, takeAddAuditEntry, he, checked_config h]
  · exact (checked_pass (decide_eq_false (Nat.not_le.mpr hlt))).trans
      (checked_pass (Bool.eq_false_iff.mpr (mt hany.mp hno)))
  · exact checked_fail (decide_eq_true hfull)
  · exact (checked_pass (decide_eq_false (Nat.not_le.mpr hlt))).trans (checked_fail (hany.mpr hlisted))

/-- Settles O15. -/
theorem tablesCleared : Obligations.TablesCleared := by
  intro tag s h
  have hany : (s.images.any (fun im => im.capture.isSome) = true) ↔ ∃ im ∈ s.images, im.capture ≠ none := by
    simp only [List.any_eq_true, Option.isSome_iff_ne_none]
  refine ⟨fun hno => ?_, fun hc => ?_⟩ <;>
    refine answers_of_respond rfl h.taken ?_ <;>
    simp only [respond, takeClearTables, checked_config h]
  · exact checked_pass (Bool.eq_false_iff.mpr (mt hany.mp (fun ⟨im, him, hc⟩ => hc (hno im him))))
  · exact checked_fail (hany.mpr hc)

end Sys2Proof.Machine
end

section
/-! SUPPORT. Recipes and SET ACTIVE FORMAT: tables changed at an index, format states set. -/

namespace Sys2Proof.Machine

open Sys2Proof

variable {s t : State} {tag : Byte} {α β : Type}

/-! ### Tables changed at an index -/

theorem length_tableSet_of_free {t : List (Nat × α)} {k : Nat} {x : α} (h : tableGet t k = none) :
    (tableSet t k x).length = t.length + 1 := by
  induction t with
  | nil => rfl
  | cons e t ih =>
    obtain ⟨j, y⟩ := e
    by_cases hj : j = k
    · simp [tableGet, hj] at h
    · simp only [tableGet, if_neg hj] at h
      simp only [tableSet, if_neg hj]
      split
      · rfl
      · simp [ih h]

/-- Placing an item keeps the ascending order of the indices. -/
theorem pairwise_tableSet {t : List (Nat × α)} {k : Nat} {x : α} (h : t.Pairwise (fun a b => a.1 < b.1)) :
    (tableSet t k x).Pairwise (fun a b => a.1 < b.1) := by
  induction t with
  | nil => exact List.pairwise_singleton _ _
  | cons e t ih =>
    obtain ⟨j, y⟩ := e
    obtain ⟨hj, ht⟩ := List.pairwise_cons.mp h
    simp only [tableSet]
    split
    · next e => subst e; exact List.pairwise_cons.mpr ⟨hj, ht⟩
    · split
      · next hk =>
        refine List.pairwise_cons.mpr ⟨fun a ha => ?_, h⟩
        rcases List.mem_cons.mp ha with rfl | ha
        · exact hk
        · exact lt_trans hk (hj a ha)
      · next hne hk =>
        refine List.pairwise_cons.mpr ⟨fun a ha => ?_, ih ht⟩
        rcases mem_tableSet t k x a ha with rfl | ha
        · show j < k; omega
        · exact hj a ha

theorem tableGet_tableMod (t : List (Nat × α)) (k j : Nat) (f : α → α) :
    tableGet (tableMod t k f) j = if j = k then (tableGet t j).map f else tableGet t j := by
  induction t with
  | nil => simp [tableMod, tableGet]
  | cons e t ih =>
    obtain ⟨l, y⟩ := e
    have hcons : tableMod ((l, y) :: t) k f = (if l = k then (l, f y) else (l, y)) :: tableMod t k f := rfl
    rw [hcons]
    by_cases hl : l = j <;> by_cases hk : l = k <;> by_cases hj : j = k <;> simp_all [tableGet]

/-- A list of changes, each made by `g` with its own value, leaves an index that no change names as it was. -/
theorem tableGet_foldl_of_not_mem (g : β → α → α) (vs : List (Nat × β)) (t : List (Nat × α)) (k : Nat)
    (h : ∀ v, (k, v) ∉ vs) : tableGet (vs.foldl (fun ps c => tableMod ps c.1 (g c.2)) t) k = tableGet t k := by
  induction vs generalizing t with
  | nil => rfl
  | cons c vs ih =>
    have hk : k ≠ c.1 := fun e => h c.2 (by simp [e])
    rw [List.foldl_cons, ih _ (fun v hv => h v (List.mem_cons_of_mem _ hv)), tableGet_tableMod, if_neg hk]

/-- With no index named twice, an index named has its one change made. -/
theorem tableGet_foldl_of_mem (g : β → α → α) (vs : List (Nat × β)) (t : List (Nat × α)) (k : Nat) (v : β)
    (hvs : vs.Pairwise (fun a b => a.1 ≠ b.1)) (h : (k, v) ∈ vs) :
    tableGet (vs.foldl (fun ps c => tableMod ps c.1 (g c.2)) t) k = (tableGet t k).map (g v) := by
  induction vs generalizing t with
  | nil => cases h
  | cons c vs ih =>
    obtain ⟨hc, hrest⟩ := List.pairwise_cons.mp hvs
    rw [List.foldl_cons]
    rcases List.mem_cons.mp h with rfl | h
    · rw [tableGet_foldl_of_not_mem _ _ _ _ (fun w hw => hc _ hw rfl), tableGet_tableMod, if_pos rfl]
    · have hk : k ≠ c.1 := fun e => hc _ h e.symm
      rw [ih _ hrest h, tableGet_tableMod, if_neg hk]

/-- What every change keeps of an item, the list of changes keeps. -/
theorem tableGet_foldl_kept {γ : Type} (g : β → α → α) (view : α → γ) (hg : ∀ v a, view (g v a) = view a)
    (vs : List (Nat × β)) (t : List (Nat × α)) (k : Nat) :
    (tableGet (vs.foldl (fun ps c => tableMod ps c.1 (g c.2)) t) k).map view = (tableGet t k).map view := by
  induction vs generalizing t with
  | nil => rfl
  | cons c vs ih =>
    rw [List.foldl_cons, ih, tableGet_tableMod]
    split
    · rw [Option.map_map]
      exact congrArg (fun f => (tableGet t k).map f) (funext (hg c.2))
    · rfl

/-! ### Recipes -/

/-- The name LOAD RECIPE gives: none, or a name of at least one character (R134). -/
theorem recipeNameOf_eq_some {x : Option (List Byte)} {name : Option (List Byte)}
    (h : x = none ∧ name = none ∨ ∃ bytes chars, x = some bytes ∧ nameOf 16 bytes = some chars ∧ chars ≠ []
      ∧ name = some chars) : recipeNameOf x = some name := by
  rcases h with ⟨rfl, rfl⟩ | ⟨bytes, chars, rfl, hn, hne, rfl⟩
  · rfl
  · obtain ⟨c, cs, rfl⟩ := List.exists_cons_of_ne_nil hne
    simp [recipeNameOf, hn]

theorem formatInRange_iff (f : Nat) : formatInRange f = true ↔ 1 ≤ f ∧ f ≤ 12 := by simp [formatInRange]

theorem recipeBlockOf_eq_some {r : RecipeBlockReq} {i : Station} (hi : stationOf r.station = some i) (h1 : 1 ≤ r.format)
    (h2 : r.format ≤ 12) (hb : r.block ≤ 1023) (hp1 : 1 ≤ r.pass) (hp2 : r.pass ≤ 3) (him : r.image < 160) :
    recipeBlockOf r = some { station := i, block := r.block, pass := r.pass, image := r.image } := by
  simp only [recipeBlockOf, hi, Option.bind_eq_bind, Option.bind_some]
  exact if_pos ⟨(formatInRange_iff _).mpr ⟨h1, h2⟩, hb, hp1, hp2, him⟩

/-- Settles O13. -/
theorem recipesLoaded : Obligations.RecipesLoaded := by
  refine ⟨fun tag r s name h h1 h2 hn => ?_, fun tag r s h hr => ?_,
    fun tag r s i rec h h1 h2 hi hb hp1 hp2 him hrec hlen hfree => ?_,
    fun tag r s rec p h h1 h2 hk hrec hp hlen hfree hlo hhi => ?_, fun tag r s it h hit hrec => ?_,
    fun tag r s h h1 h2 hk hnone => ?_⟩
  · refine ⟨{ s with recipes := tableSet s.recipes r.format { name := name, blocks := [], values := [] } },
      answers_of_respond rfl h.taken ?_, rfl, tableGet_tableSet_self _ _ _,
      fun g hg => tableGet_tableSet_ne _ _ _ _ (Ne.symm hg)⟩
    simp only [respond, takeLoadRecipe, recipeNameOf_eq_some hn, checked_config h]
    exact checked_pass (by rw [(formatInRange_iff _).mpr ⟨h1, h2⟩]; rfl)
  · refine answers_of_respond rfl h.taken ?_
    simp only [respond, takeLoadRecipe]
    split
    · exact refusedRange_of_configuring h
    · next name hname =>
      rw [checked_config h]
      refine checked_fail ?_
      have hout : ¬ (1 ≤ r.format ∧ r.format ≤ 12) := by
        rcases hr with h0 | h12 | ⟨bytes, hb, hno⟩
        · omega
        · omega
        · rw [hb, recipeNameOf, hno] at hname
          cases hname
      rw [Bool.eq_false_iff.mpr (mt (formatInRange_iff _).mp hout)]
      rfl
  · have hit := recipeBlockOf_eq_some hi h1 h2 hb hp1 hp2 him
    refine ⟨{ s with recipes := tableSet s.recipes r.format { rec with blocks := rec.blocks ++
        [{ station := i, block := r.block, pass := r.pass, image := r.image }] } },
      answers_of_respond rfl h.taken ?_, rfl, tableGet_tableSet_self _ _ _,
      fun g hg => tableGet_tableSet_ne _ _ _ _ (Ne.symm hg)⟩
    simp only [respond, takeLoadRecipeBlock, hit, hrec, checked_config h]
    exact (checked_pass (decide_eq_false (Nat.not_le.mpr hlen))).trans (checked_pass (by rw [hfree]; rfl))
  · refine ⟨{ s with
        recipes := tableSet s.recipes r.format
          { rec with values := tableSet rec.values r.parameter (valueOf p.signed r.value) } },
      { rec with values := tableSet rec.values r.parameter (valueOf p.signed r.value) },
      answers_of_respond rfl h.taken ?_, rfl, tableGet_tableSet_self _ _ _, rfl, rfl, tableGet_tableSet_self _ _ _,
      fun j hj => tableGet_tableSet_ne _ _ _ _ (Ne.symm hj), length_tableSet_of_free hfree, pairwise_tableSet,
      fun g hg => tableGet_tableSet_ne _ _ _ _ (Ne.symm hg)⟩
    simp only [respond, takeLoadRecipeValue, hrec, hp, List.append_assoc, checked_config h, List.singleton_append]
    refine (checked_pass ?_).trans ((checked_pass (decide_eq_false (Nat.not_le.mpr hlen))).trans
      ((checked_pass (by rw [hfree]; rfl)).trans (checked_pass ?_)))
    · rw [(formatInRange_iff _).mpr ⟨h1, h2⟩]
      exact decide_eq_false (Nat.not_le.mpr hk)
    · simp [between, hlo, hhi]
  · refine answers_of_respond rfl h.taken ?_
    simp only [respond, takeLoadRecipeBlock, hit, hrec, checked_config h]
    exact checked_fail rfl
  · refine answers_of_respond rfl h.taken ?_
    have hrow : (!formatInRange r.format || decide (Config.parameterCapacity ≤ r.parameter)) = false := by
      rw [(formatInRange_iff _).mpr ⟨h1, h2⟩]
      exact decide_eq_false (Nat.not_le.mpr hk)
    simp only [respond, takeLoadRecipeValue, List.append_assoc, checked_config h]
    split
    · next hrec hp =>
      rcases hnone with e | e
      · rw [hrec] at e; cases e
      · rw [hp] at e; cases e
    · exact (checked_pass hrow).trans (checked_fail rfl)

/-! ### Format states -/

theorem setFormats_frame (set : List Station) (f : FormatState) (s : State) :
    { setFormats set f s with stations := s.stations } = s := by
  unfold setFormats
  induction set generalizing s with
  | nil => rfl
  | cons i set ih => exact congrArg (fun x : State => { x with stations := s.stations }) (ih (s.modStn i _))

/-- The stations of the set take the format state; nothing else of any record changes (R138). -/
theorem setFormats_stn (set : List Station) (f : FormatState) (s : State) (i : Station) :
    (setFormats set f s).stn i = if i ∈ set then { s.stn i with format := f } else s.stn i := by
  unfold setFormats
  induction set generalizing s with
  | nil => rfl
  | cons j set ih =>
    rw [List.foldl_cons, ih]
    by_cases hj : j = i
    · subst hj
      simp
    · rw [stn_modStn_ne _ _ hj]
      simp [Ne.symm hj]

theorem mem_allStations (i : Station) : i ∈ allStations := List.mem_finRange i

/-- A current value fits a baseline: in the band about it and a whole number of grains from it (R76). -/
theorem fits_iff (p : Param) (v : Int) : p.fits v = true ↔
    max (v - p.low) p.hmin ≤ p.current ∧ p.current ≤ min (v + p.high) p.hmax ∧ (p.grain : Int) ∣ p.current - v := by
  simp only [Param.fits, between, Bool.and_eq_true, decide_eq_true_eq, Int.dvd_iff_emod_eq_zero, and_assoc]

/-- The current value of the parameter at an index, if there is one, fits a baseline. -/
def FitsAt (ps : List (Nat × Param)) (x : Nat × Int) : Prop := ∀ p, tableGet ps x.1 = some p → p.fits x.2 = true

theorem firstUnfit_cons_of_fits {ps : List (Nat × Param)} {x : Nat × Int} {rest : List (Nat × Int)} (h : FitsAt ps x) :
    firstUnfit ps (x :: rest) = firstUnfit ps rest := by
  obtain ⟨k, v⟩ := x
  simp only [firstUnfit]
  split
  · next p hp => rw [if_pos (h p hp)]
  · rfl

theorem firstUnfit_cons_of_not_fits {ps : List (Nat × Param)} {x : Nat × Int} {rest : List (Nat × Int)}
    (h : ¬ FitsAt ps x) : firstUnfit ps (x :: rest) = some x.1 := by
  obtain ⟨k, v⟩ := x
  simp only [FitsAt, not_forall] at h
  obtain ⟨p, hp, hno⟩ := h
  simp only [firstUnfit, hp, if_neg hno]

theorem firstUnfit_append {ps : List (Nat × Param)} {before rest : List (Nat × Int)} (h : ∀ x ∈ before, FitsAt ps x) :
    firstUnfit ps (before ++ rest) = firstUnfit ps rest := by
  induction before with
  | nil => rfl
  | cons x xs ih =>
    rw [List.cons_append, firstUnfit_cons_of_fits (h x (by simp)), ih (fun y hy => h y (by simp [hy]))]

/-- Settles O14: the values of the recipe become baselines one by one. -/
theorem activeFormatDeclared : Obligations.ActiveFormatDeclared := by
  intro tag f s r h hkey h1 h12 hr fits
  have hfits : ∀ x : Nat × Int, fits x.1 x.2 ↔ FitsAt s.params x := fun x =>
    forall_congr' (fun p => imp_congr Iff.rfl (fits_iff p x.2).symm)
  have hvalues : recipeValuesOf s.recipes f = r.values := by simp [recipeValuesOf, hr]
  have hrows : respond (.setActiveFormat f) s = match firstUnfit s.params r.values with
      | some k => (.refusedAt .range (.of .parameter k), s)
      | none => (.ok .none, declareFormat f s) := by
    simp only [respond, takeSetActiveFormat, checked_config h]
    refine (checked_pass (decide_eq_false (Nat.not_lt.mpr h12))).trans ((checked_pass (by rw [hkey]; rfl)).trans
      ((checked_pass (by rw [hr]; exact Bool.and_false _)).trans ?_))
    rw [if_neg (by omega), hvalues]
    rfl
  refine ⟨fun hall => ?_, fun before after k v hsplit hbefore hno => ?_⟩
  · have hnone : firstUnfit s.params r.values = none := by
      have := firstUnfit_append (rest := []) (fun x hx => (hfits x).mp (hall x hx))
      rwa [List.append_nil] at this
    have hf : ¬ f = 0 := by omega
    have hd : declareFormat f s = setFormats (allStations.filter s.mapped) (.fmt f)
        { s with activeFormat := f,
                 params := r.values.foldl (fun ps c => tableMod ps c.1 (fun p => p.rebase c.2)) s.params } := by
      simp only [declareFormat, if_neg hf, hvalues]
    have hframe := setFormats_frame (allStations.filter s.mapped) (.fmt f)
        { s with activeFormat := f,
                 params := r.values.foldl (fun ps c => tableMod ps c.1 (fun p => p.rebase c.2)) s.params }
    rw [← hd] at hframe
    have hparams : (declareFormat f s).params
        = r.values.foldl (fun ps c => tableMod ps c.1 (fun p => p.rebase c.2)) s.params := (congrArg State.params hframe :)
    refine ⟨declareFormat f s, answers_of_respond rfl h.taken (by rw [hrows, hnone]), ?_,
      (congrArg State.activeFormat hframe :), fun i => ?_, fun k p hp hk => ?_, fun k p q hp hq => ?_,
      fun hpair k v p hmem hp => ?_⟩
    · exact congrArg (fun x : State => { x with activeFormat := s.activeFormat, params := s.params }) hframe
    · rw [hd, setFormats_stn]
      simp [mem_allStations]
      rfl
    · rw [hparams, tableGet_foldl_of_not_mem (fun v p => Param.rebase p v) _ _ _ hk, hp]
    · have := tableGet_foldl_kept (fun v p => Param.rebase p v) Param.current (fun _ _ => rfl) r.values s.params k
      rw [← hparams, hp, hq] at this
      exact Option.some.inj this
    · rw [hparams, tableGet_foldl_of_mem (fun v p => Param.rebase p v) _ _ _ v hpair hmem, hp]
      rfl
  · refine answers_of_respond rfl h.taken ?_
    rw [hrows, hsplit, firstUnfit_append (fun x hx => (hfits x).mp (hbefore x hx)),
      firstUnfit_cons_of_not_fits (fun hk => hno ((hfits (k, v)).mpr hk))]

end Sys2Proof.Machine
end

section
/-! SUPPORT. Supply, reset and time; LOCK and RESTART; a guard that does not run. -/

namespace Sys2Proof.Machine

open Sys2Proof

variable {s t u : State} {tag : Byte}

/-! ### Start-up and stop -/

/-- A start-up puts every block at its start values, with the jumpers and levels it finds (R176). -/
theorem started_startUp (cause : ResetCause) (hi : u.inputs = s.inputs) (he : u.eng = s.eng)
    (hs : u.sup.lastSent = s.sup.lastSent) (hp : u.pending = s.pending) :
    Started cause u.jumperField s (startUp cause u) where
  running := rfl
  time := rfl
  stage := ⟨rfl, rfl⟩
  stations i := ⟨by simp [startUp, State.reset, State.stn], by simp [startUp, State.reset, State.link],
    by simp [startUp, State.reset]⟩
  ports p := ⟨by simp [startUp, State.reset], startUp_port cause u p⟩
  inputs x := by
    rw [← hi]
    cases x <;> rfl
  timing := rfl
  tables := ⟨rfl, rfl, rfl, rfl, rfl, rfl⟩
  atRest := ⟨rfl, rfl, fun c => by simp [startUp, State.reset, State.chan]⟩
  eng e := by simp [startUp, State.engp, he]
  sup := by rw [← hs]; rfl
  events := ⟨rfl, rfl⟩
  outputs := ⟨rfl, rfl⟩
  waiting := hp

/-- A stopped guard is off: every block at its start values, both outputs deasserted (R39, R176). -/
theorem halted_stopped {p : Power} (hp : p ≠ .running) (hj : u.jumperField = s.jumperField)
    (hq : u.pending = s.pending) : Halted p s (stopped p u) where
  power := rfl
  ports q := by rw [← hj]; exact stopped_port p u q
  links i := ⟨by simp [stopped, startUp, State.reset, State.stn], by simp [stopped, startUp, State.reset, State.link]⟩
  idle := ⟨rfl, rfl, fun c => by simp [stopped, startUp, State.reset, State.chan],
    fun e => by simp [stopped, startUp, State.engp, EngPort.start]⟩
  sup := ⟨rfl, rfl⟩
  outputs := by
    have hd : decide ((stopped p u).power = .running) = false := decide_eq_false hp
    exact ⟨by simp only [State.attention, hd, Bool.false_and], by simp only [State.permit, hd, Bool.false_and]⟩
  events := rfl
  waiting := hq

/-- Settles O3. -/
theorem supplyAndReset : Obligations.SupplyAndReset := by
  refine ⟨fun moved s h => ⟨_, rfl, ?_⟩, fun moved s cause h => ⟨_, rfl, ?_⟩, fun moved s h => ⟨_, rfl, ?_⟩,
    fun s h => ⟨_, rfl, ?_⟩, fun s cause h => ?_, fun s => ⟨_, rfl, halted_stopped nofun rfl rfl⟩, fun s h => ?_⟩
  · have hr : (moveJumpers moved s).resetLevel = false := h
    rw [powerOn, if_neg (by rw [hr]; exact Bool.false_ne_true)]
    exact started_startUp (u := moveJumpers moved s) .power rfl rfl rfl rfl
  · have hf : resetFalls (moveJumpers moved s)
        = startUp cause { moveJumpers moved s with resetLevel := false, resetHeld := 0 } := by
      simp only [resetFalls, moveJumpers, h]
    rw [hf]
    exact ⟨rfl, started_startUp (u := { moveJumpers moved s with resetLevel := false, resetHeld := 0 }) cause
      rfl rfl rfl rfl⟩
  · have hr : (moveJumpers moved s).resetLevel = true := h
    rw [powerOn, if_pos hr]
    exact ⟨rfl, rfl, rfl⟩
  · have hl : resetHeldLong s = stopped (.inReset .terminal) { s with resetLevel := true } := by
      simp only [resetHeldLong, h]
    rw [hl]
    exact halted_stopped nofun rfl rfl
  · have hl : resetHeldLong s = { s with resetLevel := true } := by simp only [resetHeldLong, h]
    exact congrArg Host.Outcome.next hl
  · have hl : resetRises s = { s with resetLevel := true, resetHeld := 0 } := by
      rw [resetRises, if_neg (by rw [h]; exact Bool.false_ne_true)]
    exact congrArg Host.Outcome.next hl

/-! ### A guard that does not run -/

/-- Nothing is sent, answered or posted, and no inhibit output moves. -/
def Untouched (s t : State) : Prop :=
  t.power = s.power ∧ t.links = s.links ∧ t.stations = s.stations ∧ t.ports = s.ports ∧ t.sup = s.sup
    ∧ t.events = s.events ∧ ∀ e : EngId, (t.engp e).tx = (s.engp e).tx

theorem Untouched.refl (s : State) : Untouched s s := ⟨rfl, rfl, rfl, rfl, rfl, rfl, fun _ => rfl⟩

theorem untouched_whenRunning (h : s.power ≠ .running) (f : State → State) : Untouched s (whenRunning f s) := by
  rw [whenRunning_else f s h]
  exact .refl s

theorem feed_halted (h : s.power ≠ .running) (l : LinkId) (bs : List Byte) : feed l bs s = s := by
  induction bs with
  | nil => rfl
  | cons b bs ih =>
    rw [feed, feedByte, whenRunning_else _ s h]
    exact ih

theorem untouched_modEng (s : State) (e : EngId) (f : EngPort → EngPort) (hf : ∀ p, (f p).tx = p.tx) :
    Untouched s (s.modEng e f) := by
  refine ⟨rfl, rfl, rfl, rfl, rfl, rfl, fun d => ?_⟩
  by_cases hd : e = d
  · subst hd
    rw [engp_modEng_self, hf]
  · rw [engp_modEng_ne _ _ hd]

theorem untouched_presentAsserted (h : s.power ≠ .running) (e : EngId) : Untouched s (presentAsserted e s) := by
  simp only [presentAsserted]
  split
  · exact .refl s
  · exact untouched_modEng s e _ (fun _ => rfl)

theorem untouched_presentDropped (h : s.power ≠ .running) (e : EngId) : Untouched s (presentDropped e s) := by
  simp only [presentDropped]
  split
  · rw [if_neg (fun hr => h hr.1)]
    exact untouched_modEng s e _ (fun _ => rfl)
  · exact .refl s

theorem untouched_rawChange (h : s.power ≠ .running) (x : InputId) (level : Bool) : Untouched s (rawChange x level s) := by
  simp only [rawChange]
  split
  · exact .refl s
  · rw [if_neg (fun hr => h hr.1)]
    exact .refl s

/-- Settles O4: but for the terminals' levels every command is an effect of the running guard. -/
theorem haltedGuardDoesNothing : Obligations.HaltedGuardDoesNothing := by
  intro c s t h hpower hrelease hsupply hx
  suffices hu : Untouched s t from hu
  have idle : ∀ f : State → State, Untouched s (whenRunning f s) := untouched_whenRunning h
  cases c <;> cases hx
  case powerOn moved => exact absurd rfl (hpower moved)
  case resetTerminalRelease moved => exact absurd rfl (hrelease moved)
  case supplyRemoved => exact absurd rfl hsupply
  case resetTerminal =>
    have hr : resetHeldLong s = { s with resetLevel := true } := by
      simp only [resetHeldLong]
    rw [hr]
    exact .refl s
  case resetTerminalAsserted =>
    unfold resetRises
    split
    · exact .refl s
    · exact .refl s
  case restart tag moved =>
    have hm : Untouched s (moveJumpers moved s) := .refl s
    rw [supArrive, whenRunning_else _ (moveJumpers moved s) h]
    exact hm
  case frameCheckFailed l bs => rw [feed_halted h]; exact .refl s
  case frameLengthOverrange l bs => rw [feed_halted h]; exact .refl s
  case presentAsserted e => exact untouched_presentAsserted h e
  case presentDropped e => exact untouched_presentDropped h e
  case inputRawChange x level => exact untouched_rawChange h x level
  all_goals exact idle _

/-! ### Time -/

/-- `n` ms run down every timer of a running guard, whatever its clock then shows. -/
theorem ranDown_passMs (h : s.power = .running) (n g m : Nat) :
    RanDown n s { passMs n s with guardTime := g, subSecond := m } := by
  have hp : passMs n s = _ := whenRunning_running _ s h
  rw [hp]
  refine ⟨fun i => ?_, fun p => ?_, fun x => ?_, rfl, fun e => ?_, rfl, rfl, rfl⟩
  · simp only [State.link, Fin.getElem_fin, Vector.getElem_map, LinkRec.pass, runDown]
    congr 2
  · simp only [State.port, Fin.getElem_fin, Vector.getElem_map, InhibitPort.pass, runDown]
    cases (s.ports[p.val]).monitor <;> rfl
  · cases x <;> rfl
  · simp only [State.engp, Fin.getElem_fin, Vector.getElem_map, EngPort.pass, runDown]

/-- Settles O5: a second is the milliseconds that are left of it. -/
theorem timePasses : Obligations.TimePasses := by
  refine ⟨fun s h => ⟨_, rfl, ?_⟩, fun s h hp => ?_, fun s h hp => ?_, fun k s p most minutes start count h hk hb hw => ?_⟩
  · have ht : tick s = _ := whenRunning_running _ s h
    have hpass : passMs (1000 - s.subSecond) s = _ := whenRunning_running _ s h
    have hg : (passMs (1000 - s.subSecond) s).guardTime = s.guardTime := by rw [hpass]
    have hsub : (passMs (1000 - s.subSecond) s).subSecond = s.subSecond + (1000 - s.subSecond) := by rw [hpass]
    rw [ht]
    refine ⟨fun hlt => ?_, fun heq => ?_, fun hle => ?_, ranDown_passMs h _ _ _⟩
    · show min Config.guardTimeMax (_ + 1) = _
      rw [hg]
      exact Nat.min_eq_right hlt
    · show min Config.guardTimeMax (_ + 1) = _
      rw [hg, heq]
      rfl
    · show (passMs (1000 - s.subSecond) s).subSecond - 1000 = 0
      rw [hsub]
      omega
  · have hs : step s = .next (passMs 1 s) := by unfold step; rw [hp]
    have hpass : passMs 1 s = _ := whenRunning_running _ s h
    exact ⟨passMs 1 s, hs, by rw [hpass], by rw [hpass], ranDown_passMs h 1 _ _⟩
  · have hs : step s = .next (passMs 1 s) := by unfold step; rw [hp]
    rw [hs, passMs, whenRunning_else _ s h]
  · have hc : closeWindow k s = _ := whenRunning_running _ s h
    have hopen : p.openWindow s.guardTime = if start + 60 * minutes ≤ s.guardTime then none else some (start, count) := by
      simp only [Param.openWindow, hb, hw]
    have hget := fun j => tableGet_tableMod s.params k j (fun p => { p with window := p.openWindow s.guardTime })
    refine ⟨_, congrArg Host.Outcome.next hc, rfl, fun j hj => ?_, fun hle => ?_, fun hlt => ?_⟩
    · exact (hget j).trans (if_neg hj)
    · refine (hget k).trans ?_
      rw [if_pos rfl, hk, Option.map_some, hopen, if_pos hle]
    · refine (hget k).trans ?_
      rw [if_pos rfl, hk, Option.map_some, hopen, if_neg (Nat.not_le.mpr hlt), ← hw]

/-! ### LOCK and RESTART -/

/-- A request that finds the guard changed only outside its link is answered as `respond` says of that guard. -/
theorem answers_of_respond_from {c : Instr} {q : SupRequest} {r : Response}
    (hc : exec c s = .next (supArrive tag q u)) (h : u.taking) (ho : u.sup.overrun = s.sup.overrun)
    (hr : respond q u = (r, t)) : Answers c tag s r t := by
  obtain ⟨hp, ha⟩ := h
  unfold Answers
  rw [hc, supArrive, whenRunning_running _ _ hp]
  simp only [ha, takeRequest, hr, beginReply, replyOf, ho]

/-- Settles O18. -/
theorem lockAndRestart : Obligations.LockAndRestart := by
  refine ⟨fun tag s h => ⟨fun hs => ?_, fun hs => ?_, fun hl => ?_, fun moved hl => ?_⟩, fun r s h hr ha => ?_⟩
  · refine answers_of_respond rfl h ?_
    exact checked_pass (by rw [hs]; rfl)
  · refine answers_of_respond rfl h ?_
    exact checked_fail (by rw [hs]; rfl)
  · refine answers_of_respond_from (u := moveJumpers [] s) rfl h rfl ?_
    exact checked_fail hl
  · refine answers_of_respond_from (u := moveJumpers moved s) rfl h rfl ?_
    exact checked_pass hl
  · have hx : replySent s = startUp .request { s with sup := { s.sup with lastSent := some r } } := by
      rw [replySent, whenRunning_running _ s h]
      simp only [ha, hr, if_true]
    exact ⟨_, congrArg Host.Outcome.next hx,
      started_startUp (u := { s with sup := { s.sup with lastSent := some r } }) .request rfl rfl rfl rfl⟩

end Sys2Proof.Machine
end

section
/-! SUPPORT. The budget test; fingerprints; the requests that report; events taken; drift and sweeps. -/

namespace Sys2Proof.Machine

open Sys2Proof

variable {s t u : State} {tag : Byte}

/-! ### The budget test -/

/-- The verdict before the budget test: the tests of R61 to R63, which do not look at the budget. -/
def Param.tested (p : Param) (r : Int) : Verdict :=
  if r = p.current then .unchanged else if p.clamp then p.clampVerdict r else p.strictVerdict r

theorem verdict_eq_budgeted (p : Param) (r : Int) (now : Nat) : p.verdict r now = p.budgeted now (p.tested r) := by
  unfold Param.verdict Param.tested
  split <;> rfl

theorem budgeted_of_not_spent {p : Param} {now : Nat} (h : p.spent now ≠ true) (v : Verdict) : p.budgeted now v = v := by
  cases v with
  | pass a => exact if_neg h
  | clamped a => exact if_neg h
  | unchanged | held | refused _ => rfl

theorem budgeted_of_not_moving {p : Param} {now : Nat} {v : Verdict} (h : ∀ a, v ≠ .pass a ∧ v ≠ .clamped a) :
    p.budgeted now v = v := by
  cases v with
  | pass a => exact absurd rfl (h a).1
  | clamped a => exact absurd rfl (h a).2
  | unchanged | held | refused _ => rfl

theorem spent_iff (p : Param) (now : Nat) : p.spent now = true ↔
    ∃ most minutes start count, p.budget = some (most, minutes) ∧ p.window = some (start, count)
      ∧ now < start + 60 * minutes ∧ most ≤ count := by
  unfold Param.spent Param.openWindow
  cases hb : p.budget with
  | none => simp
  | some b =>
    obtain ⟨most, minutes⟩ := b
    cases hw : p.window with
    | none => simp
    | some w =>
      obtain ⟨start, count⟩ := w
      by_cases hc : start + 60 * minutes ≤ now
      · simp [hc]
      · simp [hc, Nat.not_le.mp hc]

/-- Settles O53. -/
theorem budgetTest : Obligations.BudgetTest := by
  intro p r now free full
  have hnone : ({ p with budget := none } : Param).spent now ≠ true := by
    rw [ne_eq, spent_iff]
    rintro ⟨_, _, _, _, h, -⟩
    cases h
  have hfree : free = p.tested r := (verdict_eq_budgeted _ _ _).trans (budgeted_of_not_spent hnone _)
  rw [hfree, verdict_eq_budgeted]
  refine ⟨fun ⟨a, ha⟩ hfull => ?_, fun h => budgeted_of_not_moving h,
    fun h => budgeted_of_not_spent (mt (spent_iff p now).mp h) _, fun hr => ?_, fun hc hr hne => ?_⟩
  · have hs : p.spent now = true := (spent_iff p now).mpr hfull
    rcases ha with ha | ha <;> rw [ha]
    · rw [budgeted_pass, if_pos hs]
    · rw [budgeted_clamped, if_pos hs]
  · rw [Param.tested, if_pos hr]
    rfl
  · rw [Param.tested, if_neg hne, if_neg (by rw [hc]; exact Bool.false_ne_true), strictVerdict_band hr]
    rfl

/-! ### Fingerprints -/

theorem plainSum_append (xs ys : List Word) : plainSum (xs ++ ys) = plainSum xs + plainSum ys := by
  induction xs with
  | nil => simp [plainSum]
  | cons x xs ih => simp only [List.cons_append, plainSum, ih]; omega

theorem weightedSum_append (k : Nat) (xs ys : List Word) :
    weightedSum k (xs ++ ys) = weightedSum k xs + weightedSum (k + xs.length) ys := by
  induction xs generalizing k with
  | nil => simp [weightedSum]
  | cons x xs ih =>
    simp only [List.cons_append, weightedSum, ih, List.length_cons]
    rw [show k + 1 + xs.length = k + (xs.length + 1) by omega]
    omega

/-- Settles O56: the plain sums agree exactly when the words agree modulo 65521, and then the weighted sums do. -/
theorem fingerprintSeesOneWord : Obligations.FingerprintSeesOneWord := by
  refine ⟨fun before after v w => ?_, fun ws => ⟨?_, ?_⟩⟩
  · have hv := v.isLt
    have hw := w.isLt
    have hmod : v.toNat % 65521 = w.toNat % 65521
        ↔ v = w ∨ v.toNat = w.toNat + 65521 ∨ w.toNat = v.toNat + 65521 := by
      rw [← BitVec.toNat_inj]
      omega
    rw [← hmod]
    simp only [fingerprint, plainSum_append, weightedSum_append, plainSum, weightedSum, Prod.mk.injEq,
      Config.sumModulus]
    constructor
    · rintro ⟨hp, -⟩
      omega
    · intro h
      have hmul := Nat.ModEq.mul_left (1 + before.length) (show v.toNat ≡ w.toNat [MOD 65521] from h)
      exact ⟨Nat.ModEq.add_left _ (Nat.ModEq.add_right _ h), Nat.ModEq.add_left _ (Nat.ModEq.add_right _ hmul)⟩
  · exact Nat.le_of_lt_succ (Nat.mod_lt _ (by decide))
  · exact Nat.le_of_lt_succ (Nat.mod_lt _ (by decide))

/-! ### Reports -/

theorem stationOf_number (i : Station) : stationOf (i.val + 1) = some i := by
  unfold stationOf
  rw [dif_pos (by omega)]
  rfl

theorem stationOf_out {n : Nat} (h : n = 0 ∨ 8 < n) : stationOf n = none := by
  unfold stationOf
  exact dif_neg (by omega)

theorem reservedWords_eq_sum (ims : List Image) : reservedWords ims = (ims.map (fun im => im.length)).sum := by
  induction ims with
  | nil => rfl
  | cons im ims ih => rw [reservedWords, List.map_cons, List.sum_cons, ih]

theorem shown_of_mapped {i : Station} (h : s.mapped i = true) : s.shown i = s.stn i := if_pos h

theorem shown_of_unmapped {i : Station} (h : ¬ s.mapped i = true) : s.shown i = .cleared s.activeFormat := if_neg h

/-- What STATUS reports, field by field (R159). -/
theorem statusReport_eq (s : State) : statusReport s =
    { guardTime := s.guardTime, stage := s.stage, locked := s.locked, activeFormat := s.activeFormat,
      permit := s.permit, attention := s.attention, key := s.inputs.key.accepted, lineRun := s.inputs.lineRun.accepted,
      cover := s.inputs.cover.accepted,
      stations := (List.finRange 8).map (fun i => if s.mapped i = true then ((s.stn i).state, (s.stn i).format)
        else (.disabled, .fmt s.activeFormat)),
      windows := s.windows.length, parameters := s.params.length, images := s.images.length,
      reserved := (s.images.map (fun im => im.length)).sum, entries := s.audit.length,
      drifted := s.audit.countP (fun e => decide (e.state = .drift)),
      sweeps := s.sched.sweeps.map (fun q => q.station),
      recipes := [1, 2, 3, 4, 5, 6, 7, 8, 9, 10, 11, 12].map (fun f => (tableGet s.recipes f).map (fun r =>
        (r.blocks.length, r.values.length))),
      chState := s.changeover.state, chKind := s.changeover.kind, chTarget := s.changeover.target,
      chStations := s.changeover.stations, chRestore := s.changeover.restoreEntry,
      chPosition := s.changeover.position.bind (fun k => (s.changeover.work[k]?).map (fun st => (st, k))),
      chFailure := s.changeover.failure,
      ports := (List.finRange 4).map (fun e => ((s.engp e).state, (s.engp e).strikes,
        (((s.engp e).lockout.getD 0) + 999) / 1000)),
      channels := (List.finRange 2).map (fun c => ((s.chan c).state, (s.chan c).work.map (fun w => w.kind))),
      events := s.events.length } := by
  have hstations : allStations.map (fun i => ((s.shown i).state, (s.shown i).format))
      = (List.finRange 8).map (fun i => if s.mapped i = true then ((s.stn i).state, (s.stn i).format)
          else (.disabled, .fmt s.activeFormat)) := by
    refine List.map_congr_left (fun i _ => ?_)
    split
    · next h => rw [shown_of_mapped h]
    · next h => rw [shown_of_unmapped h]; rfl
  have hposition : s.changeover.shownPosition
      = s.changeover.position.bind (fun k => (s.changeover.work[k]?).map (fun st => (st, k))) := by
    unfold Changeover.shownPosition
    cases s.changeover.position <;> rfl
  unfold statusReport
  rw [hstations, hposition, reservedWords_eq_sum, ← List.countP_eq_length_filter]
  rfl

theorem permit_iff (s : State) : s.permit = true ↔ s.power = .running ∧ s.stage = .guarding ∧ s.changeover.state = .idle
    ∧ (∀ i : Station, s.roster[i].required = true → (s.stn i).state = .online ∧ (s.stn i).format ≠ .mixed)
    ∧ ∀ e ∈ s.audit, s.roster[e.station].required = true → e.state ≠ .drift := by
  have hstation : ∀ i : Station, (!s.required i || (s.online i && decide ((s.stn i).format ≠ .mixed))) = true
      ↔ (s.roster[i].required = true → (s.stn i).state = .online ∧ (s.stn i).format ≠ .mixed) := by
    intro i
    simp only [State.required, State.online]
    cases s.roster[i].required <;> simp
  have hentry : ∀ e : AuditEntry, (!(s.required e.station && decide (e.state = .drift))) = true
      ↔ (s.roster[e.station].required = true → e.state ≠ .drift) := by
    intro e
    simp only [State.required]
    cases s.roster[e.station].required <;> simp
  simp only [State.permit, Bool.and_eq_true, decide_eq_true_eq, List.all_eq_true, hstation, hentry, and_assoc,
    mem_allStations, forall_const]

/-- Settles O21. -/
theorem reportsChangeNothing : Obligations.ReportsChangeNothing := by
  refine ⟨fun tag s h => ⟨answers_of_respond rfl h ?_, fun i n hn hm => answers_of_respond rfl h ?_,
    fun k p hk hp hw => answers_of_respond rfl h ?_, fun k e hk he => answers_of_respond rfl h ?_,
    fun n hn => answers_of_respond rfl h ?_, fun k hk => answers_of_respond rfl h ?_,
    fun k hk hp => answers_of_respond rfl h ?_, fun k hk => answers_of_respond rfl h ?_,
    fun k hk hlen => answers_of_respond rfl h ?_⟩, permit_iff, fun s => ?_⟩
  · simp only [respond, takeStatus, statusReport_eq]
  · simp only [respond, takeReadStation, hn, stationOf_number, shown_of_mapped hm]
    rfl
  · have hshown : p.shown s.guardTime = p := by rw [Param.shown, hw]
    simp only [respond, takeReadParameter, hp, hshown]
    exact if_neg (Nat.not_le.mpr hk)
  · simp only [respond, takeReadAuditEntry, he]
    exact if_neg (Nat.not_le.mpr hk)
  · simp only [respond, takeReadStation, stationOf_out hn]
  · exact if_pos hk
  · simp only [respond, takeReadParameter, hp]
    exact if_neg (Nat.not_le.mpr hk)
  · exact if_pos hk
  · simp only [respond, takeReadAuditEntry, List.getElem?_eq_none hlen]
    exact if_neg (Nat.not_le.mpr hk)
  · simp only [State.coverPosture, Bool.and_eq_true, decide_eq_true_eq, Bool.not_eq_true', and_assoc]

/-! ### Events -/

/-- R165: an event without a fellow joins the queue at its end. -/
theorem postEvent_new {now : Nat} {src : Source} {d : Detail} {es : List Event}
    (h : ∀ e ∈ es, ¬ (e.source = src ∧ e.detail.kind = d.kind)) :
    postEvent now src d es = es ++ [{ source := src, detail := d, first := now, last := now, count := 1 }] := by
  induction es with
  | nil => rfl
  | cons e es ih =>
    have hne : e.key ≠ (src, d.kind) := fun hk => h e (by simp) (Prod.mk.inj hk)
    rw [postEvent, if_neg hne, ih (fun x hx => h x (by simp [hx]))]
    rfl

/-- R165: an event with a fellow is gathered into it, where it stands. -/
theorem postEvent_again {now : Nat} {src : Source} {d : Detail} {before after : List Event} {e : Event}
    (he : e.source = src ∧ e.detail.kind = d.kind) (h : ∀ x ∈ before, ¬ (x.source = src ∧ x.detail.kind = d.kind)) :
    postEvent now src d (before ++ e :: after) = before ++ e.again now d :: after := by
  induction before with
  | nil =>
    rw [List.nil_append, List.nil_append, postEvent, if_pos]
    rw [Event.key, he.1, he.2]
  | cons x xs ih =>
    have hne : x.key ≠ (src, d.kind) := fun hk => h x (by simp) (Prod.mk.inj hk)
    rw [List.cons_append, postEvent, if_neg hne, ih (fun y hy => h y (by simp [hy]))]
    rfl

/-- Settles O22. -/
theorem eventsTaken : Obligations.EventsTaken := by
  refine ⟨fun tag s h => ?_, fun s h => ?_, fun s h => ?_, fun now src d es => ⟨postEvent_new, ?_⟩⟩
  · refine ⟨{ s with events := s.events.drop 8, holdoff := holdoffAfter s (s.events.drop 8) },
      answers_of_respond rfl h rfl, rfl, rfl, fun hlen ha ht => ?_, fun hor => ?_⟩
    · exact if_pos ⟨ha, List.drop_eq_nil_of_le hlen, ht⟩
    · refine if_neg ?_
      rintro ⟨ha, hnil, -⟩
      rcases hor with h1 | h1
      · rw [h1] at ha
        cases ha
      · exact absurd (List.drop_eq_nil_iff.mp hnil) (Nat.not_le.mpr h1)
  · simp [State.attention, h]
  · have hx : holdoffExpiry s = { s with holdoff := none } := whenRunning_running _ s h
    refine ⟨_, congrArg Host.Outcome.next hx, rfl, ?_⟩
    simp [State.attention, h]
  · intro before after e hes he hbefore
    rw [hes]
    exact postEvent_again he hbefore

/-! ### Drift and sweeps -/

theorem queueSweep_new {i : Station} {qs : List Sweep} (h : ∀ q ∈ qs, q.station ≠ i) :
    queueSweep i qs = qs ++ [{ station := i, started := false, again := false, taken := none }] := by
  induction qs with
  | nil => rfl
  | cons q qs ih =>
    rw [queueSweep, if_neg (h q (by simp)), ih (fun x hx => h x (by simp [hx]))]
    rfl

/-- A station that is in the queue stays where it is (R123). -/
theorem queueSweep_stations_of_mem {i : Station} {qs : List Sweep} (h : ∃ q ∈ qs, q.station = i) :
    (queueSweep i qs).map (fun q => q.station) = qs.map (fun q => q.station) := by
  induction qs with
  | nil => obtain ⟨q, hq, -⟩ := h; cases hq
  | cons q qs ih =>
    rw [queueSweep]
    split
    · rfl
    · next hne =>
      obtain ⟨x, hx, hi⟩ := h
      rcases List.mem_cons.mp hx with rfl | hx
      · exact absurd hi hne
      · rw [List.map_cons, ih ⟨x, hx, hi⟩, List.map_cons]

theorem requestSweep_guarding (i : Station) (h : s.stage = .guarding) :
    requestSweep i s = { s with sched := { s.sched with sweeps := queueSweep i s.sched.sweeps } } := if_pos h

theorem requestSweep_configure (i : Station) (h : s.stage ≠ .guarding) : requestSweep i s = s := if_neg h

/-- Settles O23. -/
theorem driftAndSweeps : Obligations.DriftAndSweeps := by
  refine ⟨fun tag k e s h hk he => ⟨fun hd => ?_, fun hd => ?_⟩, fun tag i n s h hs hn => ?_, fun tag n s h hs h1 h8 => ?_⟩
  · have hr : respond (.ackDrift k) s = (.ok .none, s.modEntry k AuditEntry.acknowledged) := by
      simp only [respond, takeAckDrift, he, if_pos hd]
      exact if_neg (Nat.not_le.mpr hk)
    refine ⟨s.modEntry k AuditEntry.acknowledged, answers_of_respond rfl h hr, rfl, ?_, fun j hj => ?_⟩
    · simp [State.modEntry, he, AuditEntry.acknowledged]
    · simp [State.modEntry, Ne.symm hj]
  · refine answers_of_respond rfl h ?_
    simp only [respond, takeAckDrift, he, if_neg hd]
    exact if_neg (Nat.not_le.mpr hk)
  · have hr : ∀ honline : (s.stn i).state = .online, respond (.auditNow n) s
        = (.ok .none, { s with sched := { s.sched with sweeps := queueSweep i s.sched.sweeps } }) := by
      intro honline
      simp only [respond, takeAuditNow, hn, stationOf_number]
      refine (checked_pass (by rw [hs]; rfl)).trans ((checked_pass ?_).trans ?_)
      · simp [State.online, honline]
      · rw [requestSweep_guarding i hs]
        rfl
    refine ⟨fun honline hno => ?_, fun honline hin => ?_, fun hoff => ?_⟩
    · rw [← queueSweep_new hno]
      exact answers_of_respond rfl h (hr honline)
    · exact ⟨_, queueSweep_stations_of_mem hin, answers_of_respond rfl h (hr honline)⟩
    · refine answers_of_respond rfl h ?_
      simp only [respond, takeAuditNow, hn, stationOf_number]
      exact (checked_pass (by rw [hs]; rfl)).trans (checked_fail (by simp [State.online, hoff]))
  · refine answers_of_respond rfl h ?_
    obtain ⟨i, rfl⟩ : ∃ i : Station, n = i.val + 1 := ⟨⟨n - 1, by omega⟩, by simp only; omega⟩
    simp only [respond, takeAuditNow, stationOf_number]
    exact checked_fail (by rw [hs]; rfl)

end Sys2Proof.Machine
end

section
/-! SUPPORT. The arbiter, the releases and the ending of transactions, operation by operation: what each leaves, said once,
for the statements about the replies of the stations. -/

namespace Sys2Proof.Machine

open Sys2Proof

variable {s t : State} {i j : Station} {u : LinkUser} {h : ReleaseHolder} {p : Port}

/-! ### Whole records replaced -/

/-- The state with other inhibit ports. -/
def State.setPorts (s : State) (v : Vector InhibitPort 8) : State := { s with ports := v }

@[simp] theorem State.setPorts_power (s : State) (v : Vector InhibitPort 8) : (s.setPorts v).power = s.power := rfl
@[simp] theorem State.setPorts_guardTime (s : State) (v : Vector InhibitPort 8) : (s.setPorts v).guardTime = s.guardTime := rfl
@[simp] theorem State.setPorts_stage (s : State) (v : Vector InhibitPort 8) : (s.setPorts v).stage = s.stage := rfl
@[simp] theorem State.setPorts_portMap (s : State) (v : Vector InhibitPort 8) : (s.setPorts v).portMap = s.portMap := rfl
@[simp] theorem State.setPorts_roster (s : State) (v : Vector InhibitPort 8) : (s.setPorts v).roster = s.roster := rfl
@[simp] theorem State.setPorts_stations (s : State) (v : Vector InhibitPort 8) : (s.setPorts v).stations = s.stations := rfl
@[simp] theorem State.setPorts_links (s : State) (v : Vector InhibitPort 8) : (s.setPorts v).links = s.links := rfl
@[simp] theorem State.setPorts_ports (s : State) (v : Vector InhibitPort 8) : (s.setPorts v).ports = v := rfl
@[simp] theorem State.setPorts_timing (s : State) (v : Vector InhibitPort 8) : (s.setPorts v).timing = s.timing := rfl
@[simp] theorem State.setPorts_params (s : State) (v : Vector InhibitPort 8) : (s.setPorts v).params = s.params := rfl
@[simp] theorem State.setPorts_images (s : State) (v : Vector InhibitPort 8) : (s.setPorts v).images = s.images := rfl
@[simp] theorem State.setPorts_audit (s : State) (v : Vector InhibitPort 8) : (s.setPorts v).audit = s.audit := rfl
@[simp] theorem State.setPorts_sched (s : State) (v : Vector InhibitPort 8) : (s.setPorts v).sched = s.sched := rfl
@[simp] theorem State.setPorts_recipes (s : State) (v : Vector InhibitPort 8) : (s.setPorts v).recipes = s.recipes := rfl
@[simp] theorem State.setPorts_activeFormat (s : State) (v : Vector InhibitPort 8) : (s.setPorts v).activeFormat = s.activeFormat := rfl
@[simp] theorem State.setPorts_changeover (s : State) (v : Vector InhibitPort 8) : (s.setPorts v).changeover = s.changeover := rfl
@[simp] theorem State.setPorts_channels (s : State) (v : Vector InhibitPort 8) : (s.setPorts v).channels = s.channels := rfl
@[simp] theorem State.setPorts_eng (s : State) (v : Vector InhibitPort 8) : (s.setPorts v).eng = s.eng := rfl
@[simp] theorem State.setPorts_events (s : State) (v : Vector InhibitPort 8) : (s.setPorts v).events = s.events := rfl
@[simp] theorem State.setPorts_stn (s : State) (v : Vector InhibitPort 8) (j : Station) : (s.setPorts v).stn j = s.stn j := rfl
@[simp] theorem State.setPorts_link (s : State) (v : Vector InhibitPort 8) (j : Station) : (s.setPorts v).link j = s.link j := rfl
@[simp] theorem State.setPorts_engp (s : State) (v : Vector InhibitPort 8) (a : EngId) : (s.setPorts v).engp a = s.engp a := rfl
@[simp] theorem State.setPorts_chan (s : State) (v : Vector InhibitPort 8) (b : ChanId) : (s.setPorts v).chan b = s.chan b := rfl
@[simp] theorem State.setPorts_portOf (s : State) (v : Vector InhibitPort 8) (j : Station) : (s.setPorts v).portOf j = s.portOf j := rfl
@[simp] theorem State.setPorts_mapped (s : State) (v : Vector InhibitPort 8) (j : Station) : (s.setPorts v).mapped j = s.mapped j := rfl

/-- The state with another scheduler. -/
def State.setSched (s : State) (v : Scheduler) : State := { s with sched := v }

@[simp] theorem State.setSched_power (s : State) (v : Scheduler) : (s.setSched v).power = s.power := rfl
@[simp] theorem State.setSched_guardTime (s : State) (v : Scheduler) : (s.setSched v).guardTime = s.guardTime := rfl
@[simp] theorem State.setSched_stage (s : State) (v : Scheduler) : (s.setSched v).stage = s.stage := rfl
@[simp] theorem State.setSched_portMap (s : State) (v : Scheduler) : (s.setSched v).portMap = s.portMap := rfl
@[simp] theorem State.setSched_roster (s : State) (v : Scheduler) : (s.setSched v).roster = s.roster := rfl
@[simp] theorem State.setSched_stations (s : State) (v : Scheduler) : (s.setSched v).stations = s.stations := rfl
@[simp] theorem State.setSched_links (s : State) (v : Scheduler) : (s.setSched v).links = s.links := rfl
@[simp] theorem State.setSched_ports (s : State) (v : Scheduler) : (s.setSched v).ports = s.ports := rfl
@[simp] theorem State.setSched_timing (s : State) (v : Scheduler) : (s.setSched v).timing = s.timing := rfl
@[simp] theorem State.setSched_params (s : State) (v : Scheduler) : (s.setSched v).params = s.params := rfl
@[simp] theorem State.setSched_images (s : State) (v : Scheduler) : (s.setSched v).images = s.images := rfl
@[simp] theorem State.setSched_audit (s : State) (v : Scheduler) : (s.setSched v).audit = s.audit := rfl
@[simp] theorem State.setSched_sched (s : State) (v : Scheduler) : (s.setSched v).sched = v := rfl
@[simp] theorem State.setSched_recipes (s : State) (v : Scheduler) : (s.setSched v).recipes = s.recipes := rfl
@[simp] theorem State.setSched_activeFormat (s : State) (v : Scheduler) : (s.setSched v).activeFormat = s.activeFormat := rfl
@[simp] theorem State.setSched_changeover (s : State) (v : Scheduler) : (s.setSched v).changeover = s.changeover := rfl
@[simp] theorem State.setSched_channels (s : State) (v : Scheduler) : (s.setSched v).channels = s.channels := rfl
@[simp] theorem State.setSched_eng (s : State) (v : Scheduler) : (s.setSched v).eng = s.eng := rfl
@[simp] theorem State.setSched_events (s : State) (v : Scheduler) : (s.setSched v).events = s.events := rfl
@[simp] theorem State.setSched_stn (s : State) (v : Scheduler) (j : Station) : (s.setSched v).stn j = s.stn j := rfl
@[simp] theorem State.setSched_link (s : State) (v : Scheduler) (j : Station) : (s.setSched v).link j = s.link j := rfl
@[simp] theorem State.setSched_port (s : State) (v : Scheduler) (q : Port) : (s.setSched v).port q = s.port q := rfl
@[simp] theorem State.setSched_engp (s : State) (v : Scheduler) (a : EngId) : (s.setSched v).engp a = s.engp a := rfl
@[simp] theorem State.setSched_chan (s : State) (v : Scheduler) (b : ChanId) : (s.setSched v).chan b = s.chan b := rfl
@[simp] theorem State.setSched_portOf (s : State) (v : Scheduler) (j : Station) : (s.setSched v).portOf j = s.portOf j := rfl
@[simp] theorem State.setSched_mapped (s : State) (v : Scheduler) (j : Station) : (s.setSched v).mapped j = s.mapped j := rfl

theorem modStn_modStn (s : State) (i : Station) (f g : StationRec → StationRec) :
    (s.modStn i f).modStn i g = s.modStn i (fun r => g (f r)) := by
  simp [State.modStn, State.stn]

theorem modLink_modLink (s : State) (i : Station) (f g : LinkRec → LinkRec) :
    (s.modLink i f).modLink i g = s.modLink i (fun r => g (f r)) := by
  simp [State.modLink, State.link]

theorem modPort_modPort (s : State) (p : Port) (f g : InhibitPort → InhibitPort) :
    (s.modPort p f).modPort p g = s.modPort p (fun r => g (f r)) := by
  simp [State.modPort, State.port]

theorem modEng_modEng (s : State) (e : EngId) (f g : EngPort → EngPort) :
    (s.modEng e f).modEng e g = s.modEng e (fun r => g (f r)) := by
  simp [State.modEng, State.engp]

theorem modStn_congr {f g : StationRec → StationRec} (h : f (s.stn i) = g (s.stn i)) : s.modStn i f = s.modStn i g := by
  simp only [State.modStn, h]

theorem modLink_congr {f g : LinkRec → LinkRec} (h : f (s.link i) = g (s.link i)) : s.modLink i f = s.modLink i g := by
  simp only [State.modLink, h]

theorem modPort_congr {f g : InhibitPort → InhibitPort} (h : f (s.port p) = g (s.port p)) :
    s.modPort p f = s.modPort p g := by
  simp only [State.modPort, h]

theorem modLink_id {f : LinkRec → LinkRec} (h : f (s.link i) = s.link i) : s.modLink i f = s := by
  have hset : s.links.set i (s.link i) = s.links := by simp [State.link]
  simp only [State.modLink, h, hset]

theorem modStn_id {f : StationRec → StationRec} (h : f (s.stn i) = s.stn i) : s.modStn i f = s := by
  have hset : s.stations.set i (s.stn i) = s.stations := by simp [State.stn]
  simp only [State.modStn, h, hset]

theorem modLink_modStn_comm (s : State) (i : Station) (f : LinkRec → LinkRec) (g : StationRec → StationRec) :
    (s.modLink i f).modStn i g = (s.modStn i g).modLink i f := rfl

/-! ### The arbiter -/

/-- The link of a station is occupied: somebody holds it, or a transaction is in flight. -/
def State.occupied (s : State) (i : Station) : Prop := (s.link i).holder ≠ none ∨ (s.link i).inFlight ≠ none

theorem grantLoop_occupied (n : Nat) (ho : s.occupied i) : grantLoop i n s = s := by
  cases n with
  | zero => rfl
  | succ n =>
    refine if_neg ?_
    rintro ⟨h1, h2⟩
    exact ho.elim (fun h => h h1) (fun h => h h2)

/-- An occupied link does not pass. -/
theorem grant_occupied (ho : s.occupied i) : grant i s = s := grantLoop_occupied _ ho

/-- A link for which nobody waits does not pass. -/
theorem grant_no_waiters (hw : (s.link i).waiters = []) : grant i s = s := by
  simp only [grant, grantLoop, hw, pickWaiter, ite_self]

/-- An idle link passes to the waiter picked, whose work keeps it. -/
theorem grant_pick (hh : (s.link i).holder = none) (hf : (s.link i).inFlight = none)
    (hp : pickWaiter (s.link i).waiters = some u)
    (ho : (startUser i u (takeWaiter i u s)).occupied i) : grant i s = startUser i u (takeWaiter i u s) := by
  simp only [grant, grantLoop, hh, hf, hp, and_self, if_true]
  exact grantLoop_occupied _ ho

/-- Nobody holds a link, nobody waits for it, and nothing is in flight on it. -/
def State.idleLink (s : State) (i : Station) : Prop :=
  (s.link i).holder = none ∧ (s.link i).waiters = [] ∧ (s.link i).inFlight = none

/-- The link of a station held by an operation. -/
def State.heldBy (s : State) (i : Station) (u : LinkUser) : State := s.modLink i (fun l => { l with holder := some u })

/-- An operation placed on an idle link becomes its holder at once. -/
theorem place_idle (hi : s.idleLink i) (ho : (startUser i u (s.heldBy i u)).occupied i) :
    place i u s = startUser i u (s.heldBy i u) := by
  obtain ⟨hh, hw, hf⟩ := hi
  have ht : takeWaiter i u (addWaiter i u s) = s.heldBy i u := by
    rw [takeWaiter, addWaiter, modLink_modLink]
    exact modLink_congr (by simp [hw])
  have hp : pickWaiter ((addWaiter i u s).link i).waiters = some u := by simp [addWaiter, hw, pickWaiter]
  rw [place, grant_pick (by simp [addWaiter, hh]) (by simp [addWaiter, hf]) hp (by rwa [ht]), ht]

/-- An operation placed on an occupied link waits. -/
theorem place_occupied (ho : s.occupied i) : place i u s = addWaiter i u s :=
  grant_occupied (by simpa [State.occupied, addWaiter] using ho)

theorem sendRequest_occupied (s : State) (i : Station) (q : StationRequest) (u : LinkUser) :
    (sendRequest i q u s).occupied i := by
  right
  simp [sendRequest]

/-- Of two operations the one picked first stands first in rank, or is the only one to come (R19). -/
theorem pickWaiter_eq_none {ws : List LinkUser} : pickWaiter ws = none ↔ ws = [] := by
  cases ws with
  | nil => simp [pickWaiter]
  | cons v vs =>
    simp only [pickWaiter, reduceCtorEq, iff_false]
    split
    · simp
    · split <;> simp

theorem pickWaiter_mem {ws : List LinkUser} {v : LinkUser} (h : pickWaiter ws = some v) : v ∈ ws := by
  induction ws generalizing v with
  | nil => cases h
  | cons w ws ih =>
    simp only [pickWaiter] at h
    split at h
    · cases h; simp
    · next x hx =>
      split at h
      · cases h; exact List.mem_cons_of_mem _ (ih hx)
      · cases h; simp

/-- The waiter of highest priority, among equals the one placed first, is picked (R19). -/
theorem pickWaiter_split {before after : List LinkUser} {u : LinkUser} (hb : ∀ v ∈ before, u.rank < v.rank)
    (ha : ∀ v ∈ after, u.rank ≤ v.rank) : pickWaiter (before ++ u :: after) = some u := by
  induction before with
  | nil =>
    rw [List.nil_append, pickWaiter]
    split
    · rfl
    · next v hv => rw [if_neg (Nat.not_lt.mpr (ha v (pickWaiter_mem hv)))]
  | cons w ws ih =>
    rw [List.cons_append, pickWaiter, ih (fun v hv => hb v (by simp [hv]))]
    exact if_pos (hb w (by simp))

/-! ### Frames -/

theorem SameBut.refl (i : Station) (s : State) : SameBut i s s := ⟨rfl, fun _ _ => ⟨rfl, rfl⟩⟩

/-! ### Releases -/

theorem portOf_eq_some_mem (hp : s.portOf i = some p) : s.portMap[p] = some i := portOf_some hp

/-- What the inhibit ports are after the holder returns its release. -/
def State.returned (s : State) (i : Station) (h : ReleaseHolder) : Vector InhibitPort 8 := (returnRelease i h s).ports

theorem returnRelease_eq (i : Station) (h : ReleaseHolder) (s : State) :
    returnRelease i h s = s.setPorts (s.returned i h) := by
  unfold State.returned returnRelease
  split
  · rfl
  · split <;> rfl

/-- The output is reasserted when its holder returns the release (R28). -/
theorem returnRelease_port_held (hp : s.portOf i = some p) (hh : (s.port p).holder = some h) :
    ((returnRelease i h s).port p).driven = .asserted ∧ ((returnRelease i h s).port p).holder = none
      ∧ ((returnRelease i h s).port p).limitTimer = none ∧ ((returnRelease i h s).port p).settleTimer = none := by
  simp [returnRelease, hp, hh, syncMonitor, InhibitPort.reasserted]

theorem returnRelease_port_other (hp : s.portOf i ≠ some p ∨ (s.port p).holder ≠ some h) :
    (returnRelease i h s).port p = s.port p := by
  unfold returnRelease
  split
  · rfl
  · next q hq =>
    split
    · next hh =>
      have hne : q ≠ p := by
        rintro rfl
        exact hp.elim (fun h => h hq) (fun h => h hh)
      simp [syncMonitor, hne]
    · rfl

theorem returnRelease_holder (hp : s.portOf i = some p) : ((returnRelease i h s).port p).holder ≠ some h := by
  by_cases hh : (s.port p).holder = some h
  · rw [(returnRelease_port_held hp hh).2.1]
    exact nofun
  · rw [returnRelease_port_other (.inr hh)]
    exact hh

/-- Who holds no release returns none. -/
theorem returnRelease_none (hn : ∀ p, s.portOf i = some p → (s.port p).holder ≠ some h) : returnRelease i h s = s := by
  unfold returnRelease
  split
  · rfl
  · next p hp => exact if_neg (hn p hp)

/-! ### Transactions -/

/-- The state with the transaction on a link ended. -/
def State.landed (s : State) (i : Station) : State := s.modLink i (fun l => { l with inFlight := none })

/-- A transaction that a station has answered has ended: the link is idle and the missed count 0 (R7, R9). -/
def State.heard (s : State) (i : Station) : State := (s.landed i).modStn i (fun r => { r with missed := 0 })

/-- A transaction that nothing answered has ended: the link is idle and one more reply missed (R7, R9). -/
def State.unheard (s : State) (i : Station) : State :=
  (s.landed i).modStn i (fun r => { r with missed := r.missed + 1 })

theorem up_of_online (hon : (s.stn i).state = .online) : s.up i = true := by simp [State.up, hon]

theorem online_of_state (hon : (s.stn i).state = .online) : s.online i = true := by simp [State.online, hon]

theorem countMissed_reply {r : TxResult} (hr : r ≠ .noReply) (hup : s.up i = true) :
    countMissed i r (s.landed i) = s.heard i := by
  have hup' : (s.landed i).up i = true := hup
  rw [countMissed, if_pos hup']
  simp only [if_neg hr]
  rfl

theorem countMissed_noReply (hup : s.up i = true) : countMissed i .noReply (s.landed i) = s.unheard i := by
  have hup' : (s.landed i).up i = true := hup
  rw [countMissed, if_pos hup']
  simp only [if_true]
  rfl

theorem requestSweep_stations (i : Station) (s : State) : (requestSweep i s).stations = s.stations := by
  unfold requestSweep
  split <;> rfl

/-- The counter's comparison changes the expected counter and its certainty alone of a station's record. -/
theorem compareCounter_missed (i j : Station) (v : Word) (s : State) :
    ((compareCounter i v s).stn j).missed = (s.stn j).missed := by
  have hmod : ∀ (x : State) (f : StationRec → StationRec), (∀ r, (f r).missed = r.missed) →
      ((x.modStn i f).stn j).missed = (x.stn j).missed := by
    intro x f hf
    by_cases hij : i = j
    · subst hij; rw [stn_modStn_self, hf]
    · rw [stn_modStn_ne _ _ hij]
  unfold compareCounter
  split
  · split
    · exact hmod _ _ (fun _ => rfl)
    · split
      · rfl
      · simp only
        split
        · rw [State.stn, requestSweep_stations]
          exact hmod s (fun r => { r with expected := v }) (fun _ => rfl)
        · exact hmod s (fun r => { r with expected := v }) (fun _ => rfl)
  · rfl

theorem linkEffects_missed (i : Station) (q : StationRequest) (r : TxResult) (s : State) :
    ((linkEffects i q r s).stn i).missed = (s.stn i).missed := by
  unfold linkEffects
  split
  · rw [compareCounter_missed]
    simp
  · simp
  · simp
  · rfl

/-- A transaction of an operation at work on a link that is up ends with the station's answer. -/
theorem endTransaction_answered {tr : Transaction} {r : TxResult} (hr : r ≠ .noReply) (hup : s.up i = true)
    (ho : tr.owner = some u) :
    endTransaction i tr r s = ownerResult i u tr.request r (linkEffects i tr.request r (s.heard i)) := by
  have hm : ¬ (3 ≤ ((linkEffects i tr.request r (s.heard i)).stn i).missed) := by
    rw [linkEffects_missed]
    simp [State.heard]
  have hl : s.modLink i (fun l => { l with inFlight := none }) = s.landed i := rfl
  simp only [endTransaction, hl, countMissed_reply hr hup]
  rw [if_neg (fun h => hm h.2)]
  simp only [ho]

/-- One whose operation has ended before it leaves the link to whoever waits (R20). -/
theorem endTransaction_answered_orphan {tr : Transaction} {r : TxResult} (hr : r ≠ .noReply) (hup : s.up i = true)
    (ho : tr.owner = none) :
    endTransaction i tr r s = grant i (linkEffects i tr.request r (s.heard i)) := by
  have hm : ¬ (3 ≤ ((linkEffects i tr.request r (s.heard i)).stn i).missed) := by
    rw [linkEffects_missed]
    simp [State.heard]
  have hl : s.modLink i (fun l => { l with inFlight := none }) = s.landed i := rfl
  simp only [endTransaction, hl, countMissed_reply hr hup]
  rw [if_neg (fun h => hm h.2)]
  simp only [ho]

/-- A reply timeout that does not lose the link goes to the operation that sent the request. -/
theorem endTransaction_timeout {tr : Transaction} (hup : s.up i = true) (hm : (s.stn i).missed < 2)
    (ho : tr.owner = some u) :
    endTransaction i tr .noReply s = ownerResult i u tr.request .noReply (linkEffects i tr.request .noReply (s.unheard i)) := by
  have hm' : ¬ (3 ≤ ((linkEffects i tr.request .noReply (s.unheard i)).stn i).missed) := by
    rw [linkEffects_missed]
    simp [State.unheard, State.landed]
    omega
  have hl : s.modLink i (fun l => { l with inFlight := none }) = s.landed i := rfl
  simp only [endTransaction, hl, countMissed_noReply hup]
  rw [if_neg (fun h => hm' h.2)]
  simp only [ho]

theorem endTransaction_timeout_orphan {tr : Transaction} (hup : s.up i = true) (hm : (s.stn i).missed < 2)
    (ho : tr.owner = none) :
    endTransaction i tr .noReply s = grant i (linkEffects i tr.request .noReply (s.unheard i)) := by
  have hm' : ¬ (3 ≤ ((linkEffects i tr.request .noReply (s.unheard i)).stn i).missed) := by
    rw [linkEffects_missed]
    simp [State.unheard, State.landed]
    omega
  have hl : s.modLink i (fun l => { l with inFlight := none }) = s.landed i := rfl
  simp only [endTransaction, hl, countMissed_noReply hup]
  rw [if_neg (fun h => hm' h.2)]
  simp only [ho]

/-- Below ONLINE a transaction ends without a count of missed replies; bring-up takes the result. -/
theorem endTransaction_down {tr : Transaction} {r : TxResult} (hup : s.up i = false)
    (he : linkEffects i tr.request r (s.landed i) = s.landed i) (ho : tr.owner = some u) :
    endTransaction i tr r s = ownerResult i u tr.request r (s.landed i) := by
  have hup' : (s.landed i).up i = false := hup
  have hc : countMissed i r (s.landed i) = s.landed i := by simp [countMissed, hup']
  have hl : s.modLink i (fun l => { l with inFlight := none }) = s.landed i := rfl
  simp only [endTransaction, hl, hc, he, hup', Bool.false_eq_true, false_and, if_false, ho]

/-- A reply frame that answers the request outstanding ends its transaction (R7). -/
theorem stationReply_taken {tr : Transaction} {seq : Byte} {r : StationReply} (hp : s.power = .running)
    (hf : (s.link i).inFlight = some tr) (hs : tr.seq = seq) (ha : answers tr.request r = true)
    (hw : wellFormedReply tr.request r = true) : stationReply i seq r s = endTransaction i tr (replyResult r) s := by
  rw [stationReply, whenRunning_running _ s hp, stationFrame]
  simp only [hf]
  rw [if_pos ⟨hs, ha, hw⟩]

theorem timeoutExpiry_inFlight {tr : Transaction} (hp : s.power = .running) (hf : (s.link i).inFlight = some tr) :
    timeoutExpiry i s = endTransaction i tr .noReply s := by
  rw [timeoutExpiry, whenRunning_running _ s hp]
  simp only [hf]

end Sys2Proof.Machine
end

section
/-! SUPPORT. The engineering ports: what each state of a port does with a frame, the refusals of a read and a write in
their order, and the port's timers. -/

namespace Sys2Proof.Machine

open Sys2Proof

variable {s : State} {e : EngId} {i : Station} {tag : Byte}

/-! ### Frames at a port -/

theorem toolFrame_ready (q : ToolRequest) (hp : s.power = .running) (hr : (s.engp e).state = .ready) :
    toolFrame e tag q s = readyFrame e tag q s := by
  rw [toolFrame, whenRunning_running _ s hp, hr]

theorem toolFrame_waiting (q : ToolRequest) (hp : s.power = .running) (hr : (s.engp e).state = .waiting) :
    toolFrame e tag q s = sendTool e tag .busy s := by
  rw [toolFrame, whenRunning_running _ s hp, hr]

theorem toolFrame_lockedOut (q : ToolRequest) (hp : s.power = .running) (hr : (s.engp e).state = .lockedOut) :
    toolFrame e tag q s = sendTool e tag (.lockedOut (lockoutSeconds (s.engp e))) s := by
  rw [toolFrame, whenRunning_running _ s hp, hr]

theorem toolFrame_deaf (q : ToolRequest) (hp : s.power = .running)
    (hr : (s.engp e).state = .detached ∨ (s.engp e).state = .settling) : toolFrame e tag q s = s := by
  rw [toolFrame, whenRunning_running _ s hp]
  rcases hr with hr | hr <;> rw [hr]

theorem readStationOf_eq_some {r : ToolReadReq} (hi : stationOf r.station = some i) (hb : r.block ≤ 1023)
    (h1 : 1 ≤ r.count) (hc : r.count ≤ 64) (ho : r.offset + r.count ≤ 256) : readStationOf r = some i := by
  rw [readStationOf, if_pos ⟨hb, h1, hc, ho⟩, hi]

theorem readStationOf_eq_none {r : ToolReadReq}
    (h : stationOf r.station = none ∨ 1023 < r.block ∨ r.count = 0 ∨ 64 < r.count ∨ 256 < r.offset + r.count) :
    readStationOf r = none := by
  rw [readStationOf]
  split
  · exact h.resolve_right (by omega)
  · rfl

theorem writeStationOf_eq_some {r : ToolWriteReq} (hi : stationOf r.station = some i) (hb : r.block ≤ 1023)
    (h1 : 1 ≤ r.count) (hc : r.count ≤ 32) (ho : r.offset + r.count ≤ 256) (hw : r.words.length = r.count) :
    writeStationOf r = some i := by
  rw [writeStationOf, if_pos ⟨hb, h1, hc, ho, hw⟩, hi]

theorem writeStationOf_eq_none {r : ToolWriteReq}
    (h : stationOf r.station = none ∨ 1023 < r.block ∨ r.count = 0 ∨ 32 < r.count ∨ 256 < r.offset + r.count
      ∨ r.words.length ≠ r.count) : writeStationOf r = none := by
  rw [writeStationOf]
  split
  · exact h.resolve_right (by omega)
  · rfl

/-- A well-formed READ at a READY port meets its admission (R50). -/
theorem toolRead_ready {r : ToolReadReq} (hp : s.power = .running) (hr : (s.engp e).state = .ready)
    (hi : readStationOf r = some i) : exec (.toolRead e tag r) s = .next (takeToolRead e tag i r s) := by
  refine congrArg Host.Outcome.next ((toolFrame_ready _ hp hr).trans ?_)
  simp only [readyFrame, hi]

/-- A well-formed WRITE at a READY port meets its admission (R47). -/
theorem toolWrite_ready {r : ToolWriteReq} (hp : s.power = .running) (hr : (s.engp e).state = .ready)
    (hi : writeStationOf r = some i) : exec (.toolWrite e tag r) s = .next (takeToolWrite e tag i r s) := by
  refine congrArg Host.Outcome.next ((toolFrame_ready _ hp hr).trans ?_)
  simp only [readyFrame, hi]

theorem takeToolRead_refused {r : ToolReadReq} {a : ToolReply} (ha : readRefusal s i = some a) :
    takeToolRead e tag i r s = sendTool e tag a s := by
  rw [takeToolRead, ha]

theorem takeToolWrite_refused {r : ToolWriteReq} {a : ToolReply} (ha : writeRefusal s i = some a) :
    takeToolWrite e tag i r s = sendTool e tag a s := by
  rw [takeToolWrite, ha]

/-- Settles O33. -/
theorem toolFramesAnswered : Obligations.ToolFramesAnswered := by
  intro e tag kind body r w s hp
  dsimp only
  refine ⟨fun hr => congrArg _ (toolFrame_ready _ hp hr), fun hr hbad => ?_, fun hr hbad => ?_, fun hr hbad => ?_,
    fun hr => ?_, fun ms hr hms => ?_, fun hr => ?_⟩
  · refine congrArg Host.Outcome.next ((toolFrame_ready _ hp hr).trans ?_)
    rw [hbad, readyFrame]
  · refine congrArg Host.Outcome.next ((toolFrame_ready _ hp hr).trans ?_)
    simp only [readyFrame, readStationOf_eq_none hbad]
  · refine congrArg Host.Outcome.next ((toolFrame_ready _ hp hr).trans ?_)
    simp only [readyFrame, writeStationOf_eq_none hbad]
  · have h := fun q => congrArg (Host.Outcome.next (φ := Fault) (ρ := Refusal))
      (toolFrame_waiting (tag := tag) q hp hr)
    exact ⟨h _, h _, h _, h _⟩
  · have hsec : lockoutSeconds (s.engp e) = max 1 ((ms + 999) / 1000) := by rw [lockoutSeconds, hms]; rfl
    rw [← hsec]
    have h := fun q => congrArg (Host.Outcome.next (φ := Fault) (ρ := Refusal))
      (toolFrame_lockedOut (tag := tag) q hp hr)
    exact ⟨h _, h _, h _, h _⟩
  · have h := fun q => congrArg (Host.Outcome.next (φ := Fault) (ρ := Refusal))
      (toolFrame_deaf (tag := tag) q hp hr)
    exact ⟨h _, h _, h _, h _⟩

/-! ### The refusals of a write -/

theorem up_false (h1 : (s.stn i).state ≠ .online) (h2 : (s.stn i).state ≠ .quarantined) : s.up i = false := by
  simp [State.up, h1, h2]

theorem up_of_quarantined (h : (s.stn i).state = .quarantined) : s.up i = true := by simp [State.up, h]

/-- Settles O36. -/
theorem toolWriteRefusals : Obligations.ToolWriteRefusals := by
  intro e tag r s i hp hr hi hb h1 hc ho hw
  dsimp only
  have hready := toolWrite_ready (tag := tag) hp hr (writeStationOf_eq_some hi hb h1 hc ho hw)
  have answered : ∀ a, writeRefusal s i = some a → exec (.toolWrite e tag r) s = .next (sendTool e tag a s) :=
    fun a ha => hready.trans (congrArg _ (takeToolWrite_refused ha))
  refine ⟨fun hs => answered _ (by simp [writeRefusal, hs]), fun hs => ⟨fun hon hq => ?_, fun hq => ?_, fun hon hf => ?_,
    fun hon hf hh => ?_, fun hon hf hh hcov => ?_, fun hon hf hh hcov hslot => ?_⟩⟩
  · exact answered _ (by simp [writeRefusal, hs, up_false hon hq])
  · exact answered _ (by simp [writeRefusal, hs, up_of_quarantined hq, hq])
  · exact answered _ (by simp [writeRefusal, hs, up_of_online hon, hon, hf])
  · exact answered _ (by simp [writeRefusal, hs, up_of_online hon, hon, hf, hh])
  · exact answered _ (by simp [writeRefusal, hs, up_of_online hon, hon, hf, hh, hcov])
  · exact answered _ (by simp [writeRefusal, hs, up_of_online hon, hon, hf, hh, hcov, Option.isSome_iff_ne_none, hslot])

/-! ### PRESENT and the port's timers -/

/-- Settles O38. -/
theorem portAttachmentAndTimers : Obligations.PortAttachmentAndTimers := by
  intro e s hp
  refine ⟨fun hpr hst => ?_, fun hpr hst => ?_, fun hpr hst => ?_, fun ht hst => ?_, fun ht => ?_, fun ht => ?_,
    fun ht => ?_⟩ <;> refine congrArg Host.Outcome.next ?_
  · simp only [presentAsserted, hpr, hp, hst, ne_eq, not_true_eq_false, if_false, if_true, Bool.false_eq_true, modEng_modEng]
    rfl
  · simp only [presentDropped, hpr, hp, hst, ne_eq, not_false_eq_true, and_self, if_true, modEng_modEng]
    rfl
  · simp only [presentAsserted, hpr, hp, hst, ne_eq, not_true_eq_false, if_false, Bool.false_eq_true, modEng_modEng]
  · rw [portSettleExpiry, whenRunning_running _ s hp]
    simp only [Option.isSome_iff_ne_none.mpr ht, hst, and_self, if_true]
    simp only [State.modEng]
    cases (s.engp e).lockout <;> rfl
  · rw [detachExpiry, whenRunning_running _ s hp]
    exact if_pos (Option.isSome_iff_ne_none.mpr ht)
  · rw [strikeWindowExpiry, whenRunning_running _ s hp]
    exact if_pos (Option.isSome_iff_ne_none.mpr ht)
  · rw [lockoutExpiry, whenRunning_running _ s hp]
    exact if_pos (Option.isSome_iff_ne_none.mpr ht)

end Sys2Proof.Machine
end

section
/-! SUPPORT. The receivers: the bytes of a frame one after another, and what the link's state keeps of them; the
supervisor link; the timers of the station links. -/

namespace Sys2Proof.Machine

open Sys2Proof

variable {s : State} {i : Station} {l : LinkId}

/-! ### The bytes in assembly -/

theorem rxOf_setRx (l : LinkId) (bs : List Byte) (s : State) : (setRx l bs s).rxOf l = bs := by
  cases l <;> simp [setRx, State.rxOf]

theorem setRx_setRx (l : LinkId) (as bs : List Byte) (s : State) : setRx l as (setRx l bs s) = setRx l as s := by
  cases l <;> simp [setRx, modLink_modLink, modEng_modEng]

theorem modEng_id {e : EngId} {f : EngPort → EngPort} (h : f (s.engp e) = s.engp e) : s.modEng e f = s := by
  have hset : s.eng.set e (s.engp e) = s.eng := by simp [State.engp]
  simp only [State.modEng, h, hset]

/-- Setting the bytes that already stand there changes nothing. -/
theorem setRx_rxOf (l : LinkId) (s : State) : setRx l (s.rxOf l) s = s := by
  cases l with
  | station i => exact modLink_id (f := fun r => { r with rx := (s.link i).rx }) rfl
  | engineering e => exact modEng_id (f := fun r => { r with rx := (s.engp e).rx }) rfl
  | supervisor => rfl

theorem setRx_power (l : LinkId) (bs : List Byte) (s : State) : (setRx l bs s).power = s.power := by cases l <;> rfl

theorem setRx_listens (l : LinkId) (bs : List Byte) (s : State) : (setRx l bs s).listens l = s.listens l := by
  cases l <;> simp [setRx, State.listens]

/-- A byte on a listening link makes the receiver's step. -/
theorem feedByte_listening (b : Byte) (buf : List Byte) (hp : s.power = .running) (hl : s.listens l = true) :
    feedByte l b (setRx l buf s) = takeWhole l (receiverStep buf b).2 (setRx l (receiverStep buf b).1 s) := by
  rw [feedByte, whenRunning_running _ _ ((setRx_power l buf s).trans hp), setRx_listens, if_pos hl]
  simp only [rxOf_setRx, setRx_setRx]

/-- A byte that completes no frame joins those before it. -/
theorem feedByte_partial {b : Byte} {buf now : List Byte} (hp : s.power = .running) (hl : s.listens l = true)
    (hr : receiverStep buf b = (now, none)) : feedByte l b (setRx l buf s) = setRx l now s := by
  rw [feedByte_listening b buf hp hl, hr, takeWhole]

/-- The start byte, the kind, the tag and the length of a frame that is not too long. -/
theorem feed_header (kind tag len : Byte) (rest : List Byte) (hp : s.power = .running) (hl : s.listens l = true)
    (hlen : len.toNat ≤ 200) :
    feed l (0xC3#8 :: kind :: tag :: len :: rest) (setRx l [] s) = feed l rest (setRx l [0xC3#8, kind, tag, len] s) := by
  have h4 : receiverStep [0xC3#8, kind, tag] len = ([0xC3#8, kind, tag, len], none) := by
    have hle : ¬ Config.bodyMax < len.toNat := Nat.not_lt.mpr hlen
    simp [receiverStep, hle]
  simp only [feed, feedByte_partial hp hl (show receiverStep [] 0xC3#8 = ([0xC3#8], none) from rfl),
    feedByte_partial hp hl (show receiverStep [0xC3#8] kind = ([0xC3#8, kind], none) from rfl),
    feedByte_partial hp hl (show receiverStep [0xC3#8, kind] tag = ([0xC3#8, kind, tag], none) from rfl),
    feedByte_partial hp hl h4]

/-- The bytes of the body, and the first check byte, join those before them. -/
theorem feed_body {kind tag len : Byte} (tail pre : List Byte) (hp : s.power = .running) (hl : s.listens l = true)
    (hlen : len.toNat ≤ 200) (hshort : pre.length + tail.length < len.toNat + 2) :
    feed l tail (setRx l (0xC3#8 :: kind :: tag :: len :: pre) s)
      = setRx l (0xC3#8 :: kind :: tag :: len :: (pre ++ tail)) s := by
  induction tail generalizing pre with
  | nil => rw [feed, List.append_nil]
  | cons b tail ih =>
    rw [List.length_cons] at hshort
    have hr : receiverStep (0xC3#8 :: kind :: tag :: len :: pre) b
        = (0xC3#8 :: kind :: tag :: len :: (pre ++ [b]), none) := by
      have hle : ¬ Config.bodyMax < len.toNat := Nat.not_lt.mpr hlen
      have hne : ¬ pre.length = len.toNat + 1 := by omega
      simp [receiverStep, hle, hne]
    rw [feed, feedByte_partial hp hl hr, ih (pre ++ [b]) (by rw [List.length_append, List.length_singleton]; omega),
      List.append_assoc, List.singleton_append]

/-- As many bytes as a frame has complete it, and the receiver is between frames. -/
theorem feed_complete {kind tag len : Byte} {rest : List Byte} (hp : s.power = .running) (hl : s.listens l = true)
    (hrx : s.rxOf l = []) (hlen : len.toNat ≤ 200) (hrest : rest.length = len.toNat + 2) :
    feed l (0xC3#8 :: kind :: tag :: len :: rest) s = takeWhole l (some (0xC3#8 :: kind :: tag :: len :: rest)) s := by
  obtain ⟨front, last, rfl⟩ : ∃ front last, rest = front ++ [last] :=
    ⟨rest.dropLast, rest.getLast (by rintro rfl; simp at hrest), (List.dropLast_concat_getLast _).symm⟩
  rw [List.length_append, List.length_singleton] at hrest
  have hfeed : ∀ (bs cs : List Byte) (t : State), feed l (bs ++ cs) t = feed l cs (feed l bs t) := by
    intro bs
    induction bs with
    | nil => exact fun _ _ => rfl
    | cons b bs ih => exact fun cs t => ih cs _
  have hs : setRx l [] s = s := by rw [← hrx, setRx_rxOf]
  have hr : receiverStep (0xC3#8 :: kind :: tag :: len :: front) last
      = ([], some (0xC3#8 :: kind :: tag :: len :: (front ++ [last]))) := by
    have hle : ¬ Config.bodyMax < len.toNat := Nat.not_lt.mpr hlen
    have heq : front.length + 1 = len.toNat + 2 := hrest
    simp [receiverStep, hle, heq]
  rw [← hs, feed_header kind tag len _ hp hl hlen, hfeed,
    feed_body front [] hp hl hlen (by rw [List.length_nil]; omega), List.nil_append]
  simp only [feed, feedByte_listening last _ hp hl, hr]

/-- The bytes of a frame spell that frame, and with other check bytes none. -/
theorem frameOf_covered (f : Frame) (c1 c2 : Byte) (hb : f.body.length ≤ 200) :
    frameOf (0xC3#8 :: (f.covered ++ [c1, c2])) = if (c1, c2) = checkBytes f.covered then some f else none := by
  have hlen : (byte1 f.body.length).toNat = f.body.length := by
    rw [byte1, BitVec.toNat_ofNat, Nat.mod_eq_of_lt (by omega)]
  have htake : (f.body ++ [c1, c2]).take (byte1 f.body.length).toNat = f.body := by rw [hlen, List.take_left]
  have hdrop : (f.body ++ [c1, c2]).drop (byte1 f.body.length).toNat = [c1, c2] := by rw [hlen, List.drop_left]
  simp only [Frame.covered, List.cons_append, frameOf, htake, hdrop]
  refine if_congr ?_ rfl rfl
  rw [Prod.ext_iff]
  simp only [List.cons.injEq, and_true]

/-- The bytes of a frame, whatever its check bytes are, one after another (R177, R178). -/
theorem feed_covered (f : Frame) (c1 c2 : Byte) (hp : s.power = .running) (hl : s.listens l = true)
    (hrx : s.rxOf l = []) (hb : f.body.length ≤ 200) :
    feed l (0xC3#8 :: (f.covered ++ [c1, c2])) s
      = if (c1, c2) = checkBytes f.covered then takeFrame l f s else s := by
  have hlen : (byte1 f.body.length).toNat = f.body.length := by
    rw [byte1, BitVec.toNat_ofNat, Nat.mod_eq_of_lt (by omega)]
  have hall : 0xC3#8 :: (f.covered ++ [c1, c2])
      = 0xC3#8 :: f.kind :: f.tag :: byte1 f.body.length :: (f.body ++ [c1, c2]) := rfl
  rw [hall, feed_complete hp hl hrx (by omega) (by rw [List.length_append, hlen]; rfl), ← hall]
  simp only [takeWhole, frameOf_covered f c1 c2 hb]
  split_ifs <;> rfl

/-- Settles O31. -/
theorem frameTakenWhole : Obligations.FrameTakenWhole := fun _ f _ hp hl hrx hb =>
  (feed_covered f _ _ hp hl hrx hb).trans (if_pos rfl)

/-! ### The supervisor link -/

/-- A command that brings a request is that request's arrival. -/
theorem exec_commandOf {tag : Byte} {q : SupRequest} {c : Instr} (h : commandOf tag q = some c) (s : State) :
    exec c s = .next (supArrive tag q s) := by
  cases q <;> cases h
  all_goals rfl

/-- Settles O30. -/
theorem supervisorLinkHolds : Obligations.SupervisorLinkHolds := by
  refine ⟨fun tag kind body s h hbad => ?_, fun tag q r s hp ha => ⟨fun hh => ?_, fun hh => ?_⟩,
    fun r s hp ha hrs => ⟨fun hh => ?_, fun tag q c hh hc => ?_⟩, fun l f c1 c2 s hp hl hrx hb hne => ?_,
    fun l kind tag len s hp hl hrx hlen => ?_, fun l bytes s hp => ?_⟩
  · exact answers_of_respond (q := .badRecord) (congrArg (fun q => Host.Outcome.next (supArrive tag q s)) hbad) h rfl
  · refine congrArg Host.Outcome.next ?_
    rw [supArrive, whenRunning_running _ s hp]
    simp only [ha, hh]
  · refine congrArg Host.Outcome.next ?_
    obtain ⟨x, hx⟩ := Option.ne_none_iff_exists'.mp hh
    rw [supArrive, whenRunning_running _ s hp]
    simp only [ha, hx]
  · refine congrArg Host.Outcome.next ?_
    rw [replySent, whenRunning_running _ s hp]
    simp only [ha, hrs, hh, Bool.false_eq_true, if_false]
  · rw [exec_commandOf hc]
    refine congrArg Host.Outcome.next ?_
    rw [replySent, whenRunning_running _ s hp, supArrive,
      whenRunning_running _ { s with sup := { s.sup with answering := none, held := none, lastSent := some r } } hp]
    simp only [ha, hrs, hh, Bool.false_eq_true, if_false]
  · exact congrArg Host.Outcome.next ((feed_covered f c1 c2 hp hl hrx hb).trans (if_neg hne))
  · refine congrArg Host.Outcome.next ?_
    have hs : setRx l [] s = s := by rw [← hrx, setRx_rxOf]
    have h4 : receiverStep [0xC3#8, kind, tag] len = ([], none) := by
      have hlt : Config.bodyMax < len.toNat := hlen
      simp [receiverStep, hlt]
    rw [← hs]
    simp only [feed, feedByte_partial hp hl (show receiverStep [] 0xC3#8 = ([0xC3#8], none) from rfl),
      feedByte_partial hp hl (show receiverStep [0xC3#8] kind = ([0xC3#8, kind], none) from rfl),
      feedByte_partial hp hl (show receiverStep [0xC3#8, kind] tag = ([0xC3#8, kind, tag], none) from rfl),
      feedByte_partial hp hl h4]
  · refine ⟨congrArg Host.Outcome.next (whenRunning_running _ s hp), rxOf_setRx l [] s, fun hrx => ?_, ?_⟩
    · rw [← hrx, setRx_rxOf]
    · rw [setRx_setRx, setRx_rxOf]

/-! ### The timers of the station links -/

/-- The transaction a request begins when it is sent now. -/
def State.sending (s : State) (i : Station) (q : StationRequest) (u : LinkUser) : Transaction :=
  { seq := (s.stn i).nextSeq, request := q, owner := some u, timeout := s.roster[i].replyTimeout }

/-- A request sent while the link record changes. -/
theorem sendRequest_modLink (i : Station) (q : StationRequest) (u : LinkUser) (f : LinkRec → LinkRec) (s : State) :
    sendRequest i q u (s.modLink i f)
      = (s.modStn i (fun r => { r with nextSeq := r.nextSeq + 1#8 })).modLink i (fun l =>
          { f l with inFlight := some (s.sending i q u) }) := by
  simp only [sendRequest, modLink_modStn_comm, modLink_modLink]
  rfl

/-- Settles O39. -/
theorem linkTimersExpire : Obligations.LinkTimersExpire := by
  intro i s hp hf
  refine ⟨fun hst ht => ?_, fun first rate ms hst htr => ?_, fun hst ht hh hw => ?_⟩
  · refine congrArg Host.Outcome.next ?_
    rw [identExpiry, whenRunning_running _ s hp, if_pos ⟨hst, Option.isSome_iff_ne_none.mpr ht, hf⟩, sendRequest_modLink]
    rfl
  · refine congrArg Host.Outcome.next ?_
    rw [pauseExpiry, whenRunning_running _ s hp]
    simp only [hst, htr, Nat.add_sub_cancel, trainStep, sendRequest_modLink]
    cases rate <;> rfl
  · refine congrArg Host.Outcome.next ?_
    rw [pollExpiry, whenRunning_running _ s hp, if_pos (Option.isSome_iff_ne_none.mpr ht), placePresence, if_pos]
    · have hidle : (s.modLink i (fun l => { l with pollTimer := none })).idleLink i := by
        simp [State.idleLink, hh, hw, hf]
      rw [place_idle (u := .presence) hidle (sendRequest_occupied _ _ _ _)]
      simp only [startUser, State.heldBy, modLink_modLink, sendRequest_modLink]
      rfl
    · simp [State.up, hst, State.engaged, hh, hw]

end Sys2Proof.Machine
end

section
/-! SUPPORT. How a transaction of an operation at work ends: the state its result is taken in, reply by reply. -/

namespace Sys2Proof.Machine

open Sys2Proof

variable {s t : State} {i j : Station} {u : LinkUser} {seq : Byte} {q : StationRequest}

/-! ### The state in which a result is taken -/

/-- A change of a station's record in its counters alone: the missed count, the expected counter and its certainty. -/
def CountsOnly (f : StationRec → StationRec) : Prop :=
  ∀ r, { f r with missed := r.missed, expected := r.expected, uncertain := r.uncertain } = r

theorem CountsOnly.state {f : StationRec → StationRec} (hf : CountsOnly f) (r : StationRec) : (f r).state = r.state :=
  (congrArg StationRec.state (hf r) :)

theorem CountsOnly.format {f : StationRec → StationRec} (hf : CountsOnly f) (r : StationRec) :
    (f r).format = r.format := (congrArg StationRec.format (hf r) :)

theorem CountsOnly.slot {f : StationRec → StationRec} (hf : CountsOnly f) (r : StationRec) : (f r).slot = r.slot :=
  (congrArg StationRec.slot (hf r) :)

theorem CountsOnly.wordsPerFrame {f : StationRec → StationRec} (hf : CountsOnly f) (r : StationRec) :
    (f r).wordsPerFrame = r.wordsPerFrame := (congrArg StationRec.wordsPerFrame (hf r) :)

theorem CountsOnly.nextSeq {f : StationRec → StationRec} (hf : CountsOnly f) (r : StationRec) :
    (f r).nextSeq = r.nextSeq := (congrArg StationRec.nextSeq (hf r) :)

theorem CountsOnly.sumUnreliable {f : StationRec → StationRec} (hf : CountsOnly f) (r : StationRec) :
    (f r).sumUnreliable = r.sumUnreliable := (congrArg StationRec.sumUnreliable (hf r) :)

/-- The counters after a reply or a REJECT. -/
def heardRec (r : StationRec) : StationRec := { r with missed := 0 }

/-- The counters after the ACK of a WRITE. -/
def ackedRec (r : StationRec) : StationRec := { r with missed := 0, expected := r.expected + 1#16 }

/-- The request writes words. -/
def StationRequest.isWrite : StationRequest → Bool
  | .write _ _ _ => true
  | _ => false

/-- The counters after a reply timeout. -/
def unheardRec (q : StationRequest) (r : StationRec) : StationRec :=
  { r with missed := r.missed + 1, uncertain := r.uncertain || StationRequest.isWrite q }

theorem countsOnly_heard : CountsOnly heardRec := fun _ => rfl

theorem countsOnly_acked : CountsOnly ackedRec := fun _ => rfl

theorem countsOnly_unheard (q : StationRequest) : CountsOnly (unheardRec q) := fun _ => rfl

/-- The transaction on a link has ended, and the station's counters have become those of `f`. -/
def State.ended (s : State) (i : Station) (f : StationRec → StationRec) : State := (s.landed i).modStn i f

variable {f : StationRec → StationRec}

@[simp] theorem ended_link_self : (s.ended i f).link i = { s.link i with inFlight := none } := by
  simp [State.ended, State.landed]

theorem ended_link_ne (h : j ≠ i) : (s.ended i f).link j = s.link j := by
  simp [State.ended, State.landed, link_modLink_ne _ _ (Ne.symm h)]

@[simp] theorem ended_stn_self : (s.ended i f).stn i = f (s.stn i) := by simp [State.ended, State.landed]

theorem ended_stn_ne (h : j ≠ i) : (s.ended i f).stn j = s.stn j := by
  simp [State.ended, State.landed, stn_modStn_ne _ _ (Ne.symm h)]

@[simp] theorem ended_power : (s.ended i f).power = s.power := rfl
@[simp] theorem ended_guardTime : (s.ended i f).guardTime = s.guardTime := rfl
@[simp] theorem ended_stage : (s.ended i f).stage = s.stage := rfl
@[simp] theorem ended_portMap : (s.ended i f).portMap = s.portMap := rfl
@[simp] theorem ended_roster : (s.ended i f).roster = s.roster := rfl
@[simp] theorem ended_ports : (s.ended i f).ports = s.ports := rfl
@[simp] theorem ended_timing : (s.ended i f).timing = s.timing := rfl
@[simp] theorem ended_params : (s.ended i f).params = s.params := rfl
@[simp] theorem ended_images : (s.ended i f).images = s.images := rfl
@[simp] theorem ended_audit : (s.ended i f).audit = s.audit := rfl
@[simp] theorem ended_sched : (s.ended i f).sched = s.sched := rfl
@[simp] theorem ended_recipes : (s.ended i f).recipes = s.recipes := rfl
@[simp] theorem ended_activeFormat : (s.ended i f).activeFormat = s.activeFormat := rfl
@[simp] theorem ended_changeover : (s.ended i f).changeover = s.changeover := rfl
@[simp] theorem ended_channels : (s.ended i f).channels = s.channels := rfl
@[simp] theorem ended_eng : (s.ended i f).eng = s.eng := rfl
@[simp] theorem ended_events : (s.ended i f).events = s.events := rfl
@[simp] theorem ended_portOf (j : Station) : (s.ended i f).portOf j = s.portOf j := rfl
@[simp] theorem ended_port (p : Port) : (s.ended i f).port p = s.port p := rfl
@[simp] theorem ended_engp (e : EngId) : (s.ended i f).engp e = s.engp e := rfl
@[simp] theorem ended_chan (c : ChanId) : (s.ended i f).chan c = s.chan c := rfl

theorem sameBut_ended (i : Station) (f : StationRec → StationRec) (s : State) : SameBut i s (s.ended i f) :=
  ⟨rfl, fun _ h => ⟨ended_stn_ne h, ended_link_ne h⟩⟩

/-- Taking the counters' changes together with the end of the transaction. -/
theorem linkEffects_reject (i : Station) (q : StationRequest) (r : RejectReason) (s : State) :
    linkEffects i q (.reject r) s = s := by cases q <;> rfl

theorem linkEffects_noReply (i : Station) (q : StationRequest) (s : State) :
    linkEffects i q .noReply (s.unheard i) = s.ended i (unheardRec q) := by
  have hother : ∀ q, StationRequest.isWrite q = false → s.unheard i = s.ended i (unheardRec q) := fun q hq =>
    modStn_congr (by simp [unheardRec, hq])
  cases q with
  | write b o ws =>
    simp only [linkEffects, State.unheard, State.ended, modStn_modStn]
    refine modStn_congr ?_
    simp [unheardRec, StationRequest.isWrite]
  | ident => exact hother .ident rfl
  | setRate r => exact hother (.setRate r) rfl
  | echo => exact hother .echo rfl
  | state => exact hother .state rfl
  | read b o n => exact hother (.read b o n) rfl
  | sum b n => exact hother (.sum b n) rfl

/-! ### The ends of a transaction of an operation at work -/

/-- A reply that answers the request outstanding reaches the operation that sent it. -/
theorem exec_of_stationReply {c : Instr} {r : StationReply} (hc : exec c s = .next (stationReply i seq r s))
    (ha : Alone s i seq q u) (hup : s.up i = true) (hans : answers q r = true) (hw : wellFormedReply q r = true)
    (hr : replyResult r ≠ .noReply) :
    exec c s = .next (ownerResult i u q (replyResult r) (linkEffects i q (replyResult r) (s.heard i))) := by
  obtain ⟨hp, -, -, ms, hf⟩ := ha
  rw [hc, stationReply_taken hp hf rfl hans hw, endTransaction_answered hr hup rfl]

theorem answers_reject (q : StationRequest) (b : Byte) : answers q (.reject b) = true := by cases q <;> rfl

theorem wellFormedReply_reject (q : StationRequest) {b : Byte} {why : RejectReason} (h : rejectOf b = some why) :
    wellFormedReply q (.reject b) = true := by
  cases q <;> simp [wellFormedReply, h]

theorem exec_rejectReply {b : Byte} {why : RejectReason} (ha : Alone s i seq q u) (hup : s.up i = true)
    (h : rejectOf b = some why) :
    exec (.rejectReply i seq b) s = .next (ownerResult i u q (.reject why) (s.ended i heardRec)) := by
  have hres : replyResult (.reject b) = .reject why := by simp [replyResult, h]
  rw [exec_of_stationReply rfl ha hup (answers_reject q b) (wellFormedReply_reject q h) (by simp [hres]), hres,
    linkEffects_reject]
  rfl

theorem exec_replyTimeout (ha : Alone s i seq q u) (hup : s.up i = true) (hm : (s.stn i).missed < 2) :
    exec (.replyTimeout i) s = .next (ownerResult i u q .noReply (s.ended i (unheardRec q))) := by
  obtain ⟨hp, -, -, ms, hf⟩ := ha
  refine congrArg Host.Outcome.next ?_
  rw [timeoutExpiry_inFlight hp hf, endTransaction_timeout hup hm rfl, linkEffects_noReply]

theorem exec_dataReply {b o n : Nat} {ws : List Word} (ha : Alone s i seq (.read b o n) u) (hup : s.up i = true)
    (hlen : ws.length = n) :
    exec (.dataReply i seq ws) s = .next (ownerResult i u (.read b o n) (.reply (.data ws)) (s.ended i heardRec)) :=
  exec_of_stationReply (r := .data ws) rfl ha hup rfl (by simp [wellFormedReply, hlen]) (by simp [replyResult])

theorem exec_writeAck {b o : Nat} {ws : List Word} (ha : Alone s i seq (.write b o ws) u) (hup : s.up i = true) :
    exec (.writeAck i seq) s = .next (ownerResult i u (.write b o ws) (.reply .ack) (s.ended i ackedRec)) := by
  rw [exec_of_stationReply (r := .ack) rfl ha hup rfl rfl (by simp [replyResult])]
  refine congrArg (fun x => Host.Outcome.next (ownerResult i u (.write b o ws) (.reply .ack) x)) ?_
  simp only [linkEffects, replyResult, State.heard, State.ended, modStn_modStn]
  rfl

theorem exec_sumReply {b n : Nat} {x y : Word} (ha : Alone s i seq (.sum b n) u) (hup : s.up i = true)
    (hx : x.toNat < 65521) (hy : y.toNat < 65521) :
    exec (.sumReply i seq x y) s = .next (ownerResult i u (.sum b n) (.reply (.sumReply x y)) (s.ended i heardRec)) :=
  exec_of_stationReply (r := .sumReply x y) rfl ha hup rfl (by simp [wellFormedReply, Config.sumModulus, hx, hy]) (by simp [replyResult])

/-- The record and the counter's comparison at a STATE REPLY (R16, R18). -/
theorem exec_stateReply {m : Byte} {v : Word} {mode : PlcMode} (ha : Alone s i seq .state u) (hup : s.up i = true)
    (hm : plcModeOf m = some mode) :
    exec (.stateReply i seq m v) s = .next (ownerResult i u .state (.reply (.stateReply m v))
      (compareCounter i v (s.ended i (fun r => { r with missed := 0, mode := some mode })))) := by
  rw [exec_of_stationReply (r := .stateReply m v) rfl ha hup rfl (by simp [wellFormedReply, hm]) (by simp [replyResult])]
  refine congrArg (fun x => Host.Outcome.next (ownerResult i u .state (.reply (.stateReply m v)) (compareCounter i v x))) ?_
  simp only [hm, State.heard, State.ended, modStn_modStn]

/-- The holder of the link, with its transaction ended, and nobody waiting. -/
theorem Alone.holder (ha : Alone s i seq q u) : (s.link i).holder = some u := ha.2.1

theorem Alone.waiters (ha : Alone s i seq q u) : (s.link i).waiters = [] := ha.2.2.1

end Sys2Proof.Machine
end

section
/-! SUPPORT. The audit entries at the end of a hold, the failures of the changeover controller, and the requests that end
a hold. -/

namespace Sys2Proof.Machine

open Sys2Proof

variable {s t : State} {i : Station} {st : Step}

/-! ### Entries released -/

/-- An entry that wakes at the end of a hold of a set of stations (R121). -/
def AuditEntry.woken (set : List Station) (e : AuditEntry) : AuditEntry :=
  if e.station ∈ set ∧ e.state = .suspended then { e with state := .unchecked, lastCheck := none, lastOutcome := none }
  else e

theorem woken_cls (set : List Station) (e : AuditEntry) : (e.woken set).cls = e.cls := by
  unfold AuditEntry.woken
  split <;> rfl

theorem woken_station (set : List Station) (e : AuditEntry) : (e.woken set).station = e.station := by
  unfold AuditEntry.woken
  split <;> rfl

theorem woken_block (set : List Station) (e : AuditEntry) : (e.woken set).block = e.block := by
  unfold AuditEntry.woken
  split <;> rfl

theorem woken_expected (set : List Station) (e : AuditEntry) : (e.woken set).expected = e.expected := by
  unfold AuditEntry.woken
  split <;> rfl

theorem woken_of_not_mem {set : List Station} {e : AuditEntry} (h : e.station ∉ set) : e.woken set = e :=
  if_neg (fun hs => h hs.1)

/-- Only a FORMAT entry is resolved. -/
theorem resolve_of_not_format {e : AuditEntry} (rs : List (Nat × Recipe)) (ims : List Image) (g : Nat)
    (h : e.cls ≠ some .format) : e.resolve rs ims g = e := if_neg h

/-- A FORMAT entry for which the format names an image (R119). -/
theorem resolve_some {e : AuditEntry} {rs : List (Nat × Recipe)} {g id : Nat} (ims : List Image)
    (h : e.cls = some .format) (hi : resolvedImage rs g e.station e.block = some id) :
    e.resolve rs ims g = { e with
      resolved := some id
      expected := imagePrint ims id
      state := if e.state = .notApplicable then .unchecked else e.state } := by
  rw [AuditEntry.resolve, if_pos h, hi]

/-- A FORMAT entry for which the format names none (R119). -/
theorem resolve_none {e : AuditEntry} {rs : List (Nat × Recipe)} {g : Nat} (ims : List Image)
    (h : e.cls = some .format) (hi : resolvedImage rs g e.station e.block = none) :
    e.resolve rs ims g = { e with
      resolved := none
      expected := none
      state := if e.state = .drift ∨ e.state = .suspended then e.state else .notApplicable } := by
  rw [AuditEntry.resolve, if_pos h, hi]

/-- An entry after the end of a hold (R121). -/
def AuditEntry.released (set : List Station) (rs : List (Nat × Recipe)) (ims : List Image) (g : Nat) (e : AuditEntry) :
    AuditEntry :=
  if e.station ∈ set then (e.woken set).resolve rs ims g else e

/-- The state with other audit entries. -/
def State.setAudit (s : State) (es : List AuditEntry) : State := { s with audit := es }

@[simp] theorem State.setAudit_power (s : State) (es : List AuditEntry) : (s.setAudit es).power = s.power := rfl
@[simp] theorem State.setAudit_guardTime (s : State) (es : List AuditEntry) : (s.setAudit es).guardTime = s.guardTime := rfl
@[simp] theorem State.setAudit_stage (s : State) (es : List AuditEntry) : (s.setAudit es).stage = s.stage := rfl
@[simp] theorem State.setAudit_locked (s : State) (es : List AuditEntry) : (s.setAudit es).locked = s.locked := rfl
@[simp] theorem State.setAudit_portMap (s : State) (es : List AuditEntry) : (s.setAudit es).portMap = s.portMap := rfl
@[simp] theorem State.setAudit_roster (s : State) (es : List AuditEntry) : (s.setAudit es).roster = s.roster := rfl
@[simp] theorem State.setAudit_stations (s : State) (es : List AuditEntry) : (s.setAudit es).stations = s.stations := rfl
@[simp] theorem State.setAudit_links (s : State) (es : List AuditEntry) : (s.setAudit es).links = s.links := rfl
@[simp] theorem State.setAudit_ports (s : State) (es : List AuditEntry) : (s.setAudit es).ports = s.ports := rfl
@[simp] theorem State.setAudit_inputs (s : State) (es : List AuditEntry) : (s.setAudit es).inputs = s.inputs := rfl
@[simp] theorem State.setAudit_timing (s : State) (es : List AuditEntry) : (s.setAudit es).timing = s.timing := rfl
@[simp] theorem State.setAudit_windows (s : State) (es : List AuditEntry) : (s.setAudit es).windows = s.windows := rfl
@[simp] theorem State.setAudit_params (s : State) (es : List AuditEntry) : (s.setAudit es).params = s.params := rfl
@[simp] theorem State.setAudit_images (s : State) (es : List AuditEntry) : (s.setAudit es).images = s.images := rfl
@[simp] theorem State.setAudit_sched (s : State) (es : List AuditEntry) : (s.setAudit es).sched = s.sched := rfl
@[simp] theorem State.setAudit_recipes (s : State) (es : List AuditEntry) : (s.setAudit es).recipes = s.recipes := rfl
@[simp] theorem State.setAudit_activeFormat (s : State) (es : List AuditEntry) : (s.setAudit es).activeFormat = s.activeFormat := rfl
@[simp] theorem State.setAudit_changeover (s : State) (es : List AuditEntry) : (s.setAudit es).changeover = s.changeover := rfl
@[simp] theorem State.setAudit_channels (s : State) (es : List AuditEntry) : (s.setAudit es).channels = s.channels := rfl
@[simp] theorem State.setAudit_eng (s : State) (es : List AuditEntry) : (s.setAudit es).eng = s.eng := rfl
@[simp] theorem State.setAudit_sup (s : State) (es : List AuditEntry) : (s.setAudit es).sup = s.sup := rfl
@[simp] theorem State.setAudit_events (s : State) (es : List AuditEntry) : (s.setAudit es).events = s.events := rfl
@[simp] theorem State.setAudit_audit (s : State) (es : List AuditEntry) : (s.setAudit es).audit = es := rfl
@[simp] theorem State.setAudit_stn (s : State) (es : List AuditEntry) (j : Station) : (s.setAudit es).stn j = s.stn j := rfl
@[simp] theorem State.setAudit_link (s : State) (es : List AuditEntry) (j : Station) : (s.setAudit es).link j = s.link j := rfl
@[simp] theorem State.setAudit_port (s : State) (es : List AuditEntry) (q : Port) : (s.setAudit es).port q = s.port q := rfl
@[simp] theorem State.setAudit_engp (s : State) (es : List AuditEntry) (a : EngId) : (s.setAudit es).engp a = s.engp a := rfl
@[simp] theorem State.setAudit_chan (s : State) (es : List AuditEntry) (b : ChanId) : (s.setAudit es).chan b = s.chan b := rfl
@[simp] theorem State.setAudit_portOf (s : State) (es : List AuditEntry) (j : Station) : (s.setAudit es).portOf j = s.portOf j := rfl

theorem auditRelease_eq (set : List Station) (s : State) :
    auditRelease set s
      = s.setAudit (s.audit.map (AuditEntry.released set s.recipes s.images s.activeFormat)) := by
  refine congrArg s.setAudit (List.map_congr_left fun e _ => ?_)
  unfold AuditEntry.released AuditEntry.woken
  by_cases hm : e.station ∈ set
  · by_cases hs : e.state = .suspended
    · simp [hm, hs]
    · simp [hm, hs]
  · simp [hm]

theorem auditRelease_entry (set : List Station) (s : State) (m : Nat) :
    (auditRelease set s).audit[m]?
      = (s.audit[m]?).map (AuditEntry.released set s.recipes s.images s.activeFormat) := by
  rw [auditRelease_eq]
  exact List.getElem?_map

/-- The end of an operation, entry by entry: what is resolved, and what keeps its image. -/
theorem EntryReleased.intro {stations : List Station} {g : Nat} {everywhere : Bool} {vs : List (Nat × Int)} {m : Nat}
    {e : AuditEntry} {x : Option Fingerprint}
    (hres : e.cls = some .format → (everywhere = true ∨ e.station ∈ stations) →
      t.audit[m]? = some ((e.woken stations).resolve s.recipes s.images g))
    (hkept : ¬ (e.cls = some .format ∧ (everywhere = true ∨ e.station ∈ stations)) →
      t.audit[m]? = some { e.woken stations with expected := x })
    (hsame : ¬ (e.cls = some .tunable ∧ ∃ key v p, (key, v) ∈ vs ∧ tableGet s.params key = some p
      ∧ p.station = e.station ∧ p.block = e.block ∧ p.offset < e.length) → x = e.expected)
    (hnew : (e.cls = some .tunable ∧ ∃ key v p, (key, v) ∈ vs ∧ tableGet s.params key = some p
      ∧ p.station = e.station ∧ p.block = e.block ∧ p.offset < e.length) →
      ∀ id, e.image = some id → ∃ words : List Word, x = some (fingerprint words)
          ∧ words.length = (imageWords s.images id).length
          ∧ ∀ (j : Nat) (w : Word), (imageWords s.images id)[j]? = some w → words[j]? = some
              (match paramAt t.params e.station e.block j with
               | some (_, p) => (p.encode p.current).getD (j - p.offset) w
               | none => w)) :
    EntryReleased stations g everywhere vs s t m e := by
  refine ⟨fun id hr hi => ?_, fun hr hi => ?_, fun hr => ⟨x, hkept hr, hsame, fun id ht hi => hnew ht id hi⟩⟩
  · rw [hres hr.1 hr.2, resolve_some _ ((woken_cls _ _).trans hr.1) (by rw [woken_station, woken_block]; exact hi)]
    rfl
  · rw [hres hr.1 hr.2, resolve_none _ ((woken_cls _ _).trans hr.1) (by rw [woken_station, woken_block]; exact hi)]
    rfl

/-- Entries released at the end of a hold, with no value taken in. -/
theorem entryReleased_of_released {set : List Station} {m : Nat} {e : AuditEntry}
    (ht : t.audit[m]? = some (e.released set s.recipes s.images s.activeFormat)) :
    EntryReleased set s.activeFormat false [] s t m e := by
  refine EntryReleased.intro (x := e.expected) (fun hc hm => ?_) (fun hn => ?_) (fun _ => rfl) (fun h => ?_)
  · rw [ht, AuditEntry.released, if_pos (hm.resolve_left Bool.false_ne_true)]
  · rw [ht, AuditEntry.released]
    have hexp : ({ e.woken set with expected := e.expected } : AuditEntry) = e.woken set := by
      rw [← woken_expected set e]
    rw [hexp]
    by_cases hm : e.station ∈ set
    · rw [if_pos hm, resolve_of_not_format]
      rw [woken_cls]
      exact fun hc => hn ⟨hc, .inr hm⟩
    · rw [if_neg hm, woken_of_not_mem hm]
  · obtain ⟨-, key, v, p, hv, -⟩ := h
    cases hv

/-! ### Format states -/

section
variable (set : List Station) (f : FormatState) (s : State)

@[simp] theorem setFormats_links : (setFormats set f s).links = s.links :=
  (congrArg State.links (setFormats_frame set f s) :)
@[simp] theorem setFormats_link (j : Station) : (setFormats set f s).link j = s.link j :=
  congrArg (fun v : Vector LinkRec 8 => v[j]) (setFormats_links set f s)
@[simp] theorem setFormats_ports : (setFormats set f s).ports = s.ports :=
  (congrArg State.ports (setFormats_frame set f s) :)
@[simp] theorem setFormats_port (p : Port) : (setFormats set f s).port p = s.port p :=
  congrArg (fun v : Vector InhibitPort 8 => v[p]) (setFormats_ports set f s)
@[simp] theorem setFormats_changeover : (setFormats set f s).changeover = s.changeover :=
  (congrArg State.changeover (setFormats_frame set f s) :)
@[simp] theorem setFormats_audit : (setFormats set f s).audit = s.audit :=
  (congrArg State.audit (setFormats_frame set f s) :)
@[simp] theorem setFormats_params : (setFormats set f s).params = s.params :=
  (congrArg State.params (setFormats_frame set f s) :)
@[simp] theorem setFormats_recipes : (setFormats set f s).recipes = s.recipes :=
  (congrArg State.recipes (setFormats_frame set f s) :)
@[simp] theorem setFormats_images : (setFormats set f s).images = s.images :=
  (congrArg State.images (setFormats_frame set f s) :)
@[simp] theorem setFormats_activeFormat : (setFormats set f s).activeFormat = s.activeFormat :=
  (congrArg State.activeFormat (setFormats_frame set f s) :)
@[simp] theorem setFormats_sched : (setFormats set f s).sched = s.sched :=
  (congrArg State.sched (setFormats_frame set f s) :)
@[simp] theorem setFormats_events : (setFormats set f s).events = s.events :=
  (congrArg State.events (setFormats_frame set f s) :)
@[simp] theorem setFormats_guardTime : (setFormats set f s).guardTime = s.guardTime :=
  (congrArg State.guardTime (setFormats_frame set f s) :)
@[simp] theorem setFormats_inputs : (setFormats set f s).inputs = s.inputs :=
  (congrArg State.inputs (setFormats_frame set f s) :)
@[simp] theorem setFormats_power : (setFormats set f s).power = s.power :=
  (congrArg State.power (setFormats_frame set f s) :)
@[simp] theorem setFormats_portMap : (setFormats set f s).portMap = s.portMap :=
  (congrArg State.portMap (setFormats_frame set f s) :)

theorem setFormats_format (j : Station) :
    ((setFormats set f s).stn j).format = if j ∈ set then f else (s.stn j).format := by
  rw [setFormats_stn]
  split <;> rfl

end

/-! ### An operation that gives up its link and its release -/

/-- The release returned and the place in the arbiter given up, the link not yet passed on. -/
def State.gaveUp (s : State) (i : Station) (h : ReleaseHolder) (u : LinkUser) : State :=
  dropUser i u (returnRelease i h s)

section
variable (s : State) (i : Station) (h : ReleaseHolder) (u : LinkUser)

theorem gaveUp_frame : { s.gaveUp i h u with ports := s.ports, links := s.links } = s := by
  rw [State.gaveUp, returnRelease_eq]
  rfl

@[simp] theorem gaveUp_power : (s.gaveUp i h u).power = s.power := (congrArg State.power (gaveUp_frame s i h u) :)
@[simp] theorem gaveUp_stage : (s.gaveUp i h u).stage = s.stage := (congrArg State.stage (gaveUp_frame s i h u) :)
@[simp] theorem gaveUp_guardTime : (s.gaveUp i h u).guardTime = s.guardTime :=
  (congrArg State.guardTime (gaveUp_frame s i h u) :)
@[simp] theorem gaveUp_portMap : (s.gaveUp i h u).portMap = s.portMap := (congrArg State.portMap (gaveUp_frame s i h u) :)
@[simp] theorem gaveUp_roster : (s.gaveUp i h u).roster = s.roster := (congrArg State.roster (gaveUp_frame s i h u) :)
@[simp] theorem gaveUp_stations : (s.gaveUp i h u).stations = s.stations :=
  (congrArg State.stations (gaveUp_frame s i h u) :)
@[simp] theorem gaveUp_stn (j : Station) : (s.gaveUp i h u).stn j = s.stn j :=
  congrArg (fun v : Vector StationRec 8 => v[j]) (gaveUp_stations s i h u)
@[simp] theorem gaveUp_inputs : (s.gaveUp i h u).inputs = s.inputs := (congrArg State.inputs (gaveUp_frame s i h u) :)
@[simp] theorem gaveUp_timing : (s.gaveUp i h u).timing = s.timing := (congrArg State.timing (gaveUp_frame s i h u) :)
@[simp] theorem gaveUp_params : (s.gaveUp i h u).params = s.params := (congrArg State.params (gaveUp_frame s i h u) :)
@[simp] theorem gaveUp_images : (s.gaveUp i h u).images = s.images := (congrArg State.images (gaveUp_frame s i h u) :)
@[simp] theorem gaveUp_audit : (s.gaveUp i h u).audit = s.audit := (congrArg State.audit (gaveUp_frame s i h u) :)
@[simp] theorem gaveUp_sched : (s.gaveUp i h u).sched = s.sched := (congrArg State.sched (gaveUp_frame s i h u) :)
@[simp] theorem gaveUp_recipes : (s.gaveUp i h u).recipes = s.recipes := (congrArg State.recipes (gaveUp_frame s i h u) :)
@[simp] theorem gaveUp_activeFormat : (s.gaveUp i h u).activeFormat = s.activeFormat :=
  (congrArg State.activeFormat (gaveUp_frame s i h u) :)
@[simp] theorem gaveUp_changeover : (s.gaveUp i h u).changeover = s.changeover :=
  (congrArg State.changeover (gaveUp_frame s i h u) :)
@[simp] theorem gaveUp_channels : (s.gaveUp i h u).channels = s.channels :=
  (congrArg State.channels (gaveUp_frame s i h u) :)
@[simp] theorem gaveUp_eng : (s.gaveUp i h u).eng = s.eng := (congrArg State.eng (gaveUp_frame s i h u) :)
@[simp] theorem gaveUp_engp (e : EngId) : (s.gaveUp i h u).engp e = s.engp e :=
  congrArg (fun v : Vector EngPort 4 => v[e]) (gaveUp_eng s i h u)
@[simp] theorem gaveUp_events : (s.gaveUp i h u).events = s.events := (congrArg State.events (gaveUp_frame s i h u) :)
@[simp] theorem gaveUp_portOf (j : Station) : (s.gaveUp i h u).portOf j = s.portOf j := by
  rw [State.portOf, gaveUp_portMap]
  rfl

@[simp] theorem gaveUp_port (p : Port) : (s.gaveUp i h u).port p = (returnRelease i h s).port p := rfl

theorem gaveUp_link_self : (s.gaveUp i h u).link i = { s.link i with
    holder := if (s.link i).holder = some u then none else (s.link i).holder
    waiters := (s.link i).waiters.filter (fun v => decide (v ≠ u))
    inFlight := (s.link i).inFlight.map (fun t => if t.owner = some u then { t with owner := none } else t) } := by
  rw [State.gaveUp, returnRelease_eq, dropUser, link_modLink_self]
  rfl

theorem gaveUp_link_ne {i j : Station} (h : ReleaseHolder) (u : LinkUser) (hne : j ≠ i) :
    (s.gaveUp i h u).link j = s.link j := by
  rw [State.gaveUp, returnRelease_eq, dropUser, link_modLink_ne _ _ (Ne.symm hne), State.setPorts_link]

end

/-- The holder of a link for which nobody waits, with nothing in flight, leaves it idle. -/
theorem gaveUp_link_idle {h : ReleaseHolder} {u : LinkUser} (hh : (s.link i).holder = some u)
    (hw : (s.link i).waiters = []) (hf : (s.link i).inFlight = none) :
    (s.gaveUp i h u).link i = { s.link i with holder := none } := by
  rw [gaveUp_link_self]
  simp [hh, hw, hf]

/-- An operation for which nobody waits gives up its link without its passing. -/
theorem grant_gaveUp {h : ReleaseHolder} {u : LinkUser} (hw : (s.link i).waiters = []) :
    grant i (s.gaveUp i h u) = s.gaveUp i h u :=
  grant_no_waiters (by rw [gaveUp_link_self]; simp [hw])

/-- The port whose release is returned is held by nobody else for the same operation. -/
theorem gaveUp_port_holder {h : ReleaseHolder} {u : LinkUser} {p : Port} (hp : s.portOf i = some p) :
    ((s.gaveUp i h u).port p).holder ≠ some h := by
  rw [gaveUp_port]
  exact returnRelease_holder hp

/-! ### Failures of the controller -/

theorem dropStep_eq (hstep : s.changeover.step = some st) (hw : (s.link st.station).waiters = []) :
    dropStep s = s.gaveUp st.station .changeover .changeover := by
  simp only [dropStep, hstep]
  exact grant_gaveUp hw

/-- The record of a failed operation (R151). -/
def Changeover.failedWith (f : Failure) (c : Changeover) : Changeover :=
  { c with failure := some f, state := .failed, work := [], position := none, phase := .waiting, done := 0, got := [],
           stop := none }

/-- A changeover or revert that fails at a step whose link nobody waits for. -/
theorem failOperation_eq {kind : ChKind} (f : Failure) (hstep : s.changeover.step = some st)
    (hw : (s.link st.station).waiters = []) (hk : s.changeover.kind = some kind) (hne : kind ≠ .restore) :
    failOperation f s = post .controller (.operationDone kind .failed (s.changeover.target.getD 0) (some f))
      (modCh (Changeover.failedWith f)
        (setFormats s.changeover.stations .mixed (s.gaveUp st.station .changeover .changeover))) := by
  unfold failOperation
  simp only [dropStep_eq hstep hw, gaveUp_changeover, Changeover.kindOf, hk, Option.getD_some]
  cases kind with
  | restore => exact absurd rfl hne
  | changeover => rfl
  | revert => rfl

/-- A restore that fails at a step whose link nobody waits for. -/
theorem failOperation_restore (f : Failure) (hstep : s.changeover.step = some st)
    (hw : (s.link st.station).waiters = []) (hk : s.changeover.kind = some .restore) :
    failOperation f s = post .controller (.operationDone .restore .failed (s.changeover.restoreEntry.getD 0) (some f))
      (modCh (fun _ => .idle)
        (auditRelease s.changeover.stations (s.gaveUp st.station .changeover .changeover))) := by
  unfold failOperation
  simp only [dropStep_eq hstep hw, gaveUp_changeover, Changeover.kindOf, hk, Option.getD_some]
  rfl

/-- Two states alike in what the failure of an operation looks at and keeps. -/
structure FailsAlike (s x : State) : Prop where
  work : { x.changeover with done := 0, got := [] } = { s.changeover with done := 0, got := [] }
  formats : ∀ j, (x.stn j).format = (s.stn j).format
  map : x.portMap = s.portMap
  time : x.guardTime = s.guardTime
  tables : x.activeFormat = s.activeFormat ∧ x.params = s.params ∧ x.audit = s.audit ∧ x.recipes = s.recipes
    ∧ x.images = s.images

theorem FailsAlike.stations {x : State} (h : FailsAlike s x) : x.changeover.stations = s.changeover.stations :=
  (congrArg Changeover.stations h.work :)

theorem FailsAlike.target {x : State} (h : FailsAlike s x) : x.changeover.target = s.changeover.target :=
  (congrArg Changeover.target h.work :)

theorem FailsAlike.kind {x : State} (h : FailsAlike s x) : x.changeover.kind = s.changeover.kind :=
  (congrArg Changeover.kind h.work :)

theorem FailsAlike.restoreEntry {x : State} (h : FailsAlike s x) :
    x.changeover.restoreEntry = s.changeover.restoreEntry := (congrArg Changeover.restoreEntry h.work :)

theorem FailsAlike.step {x : State} (h : FailsAlike s x) : x.changeover.step = s.changeover.step :=
  (congrArg Changeover.step h.work :)

theorem FailsAlike.stop {x : State} (h : FailsAlike s x) : x.changeover.stop = s.changeover.stop :=
  (congrArg Changeover.stop h.work :)

theorem FailsAlike.failedWith {x : State} (h : FailsAlike s x) (f : Failure) :
    x.changeover.failedWith f = s.changeover.failedWith f := (congrArg (Changeover.failedWith f) h.work :)

theorem FailsAlike.portOf {x : State} (h : FailsAlike s x) (j : Station) : x.portOf j = s.portOf j := by
  simp only [State.portOf, h.map]

/-- A transaction's end, and what is counted of a step, change nothing of it. -/
theorem FailsAlike.ended {f : StationRec → StationRec} (hf : ∀ r, (f r).format = r.format) (g : Changeover → Changeover)
    (hg : ∀ c, { g c with done := 0, got := [] } = { c with done := 0, got := [] }) :
    FailsAlike s (modCh g (s.ended i f)) where
  work := hg _
  formats j := by
    by_cases hj : j = i
    · subst hj
      rw [modCh_stn, ended_stn_self, hf]
    · rw [modCh_stn, ended_stn_ne hj]
  map := rfl
  time := rfl
  tables := ⟨rfl, rfl, rfl, rfl, rfl⟩

/-- A changeover or revert fails at its step: the link and the release are given up, the stations held become MIXED, and
OPERATION_DONE is posted behind the events there are (R151). -/
theorem failOperation_failed {x : State} {kind : ChKind} (f : Failure) (ha : FailsAlike s x)
    (hstep : s.changeover.step = some st) (hst : st.station = i) (hk : s.changeover.kind = some kind)
    (hne : kind ≠ .restore) (hh : (x.link i).holder = some .changeover) (hw : (x.link i).waiters = [])
    (hf : (x.link i).inFlight = none) : FailedAt i kind f x.events s (failOperation f x) := by
  subst hst
  rw [failOperation_eq f (ha.step.trans hstep) hw (ha.kind.trans hk) hne]
  refine ⟨?_, fun j => ?_, ?_, fun p hp => ?_, ?_, ?_⟩
  · exact (congrArg (Changeover.failedWith f) ((setFormats_changeover _ _ _).trans (gaveUp_changeover _ _ _ _))).trans
      (ha.failedWith f)
  · rw [← ha.stations, ← ha.formats j, post_stn, modCh_stn, setFormats_format, gaveUp_stn]
  · rw [post_link, modCh_link, setFormats_link, gaveUp_link_idle hh hw hf]
    exact ⟨rfl, hf⟩
  · rw [post_port, modCh_port, setFormats_port]
    exact gaveUp_port_holder ((ha.portOf _).trans hp)
  · obtain ⟨h1, h2, h3, -, -⟩ := ha.tables
    refine ⟨?_, ?_, ?_⟩ <;> simp [h1, h2, h3]
  · rw [← ha.time, ← ha.target]
    simp [post]

/-- A restore fails at its step: the link and the release are given up, the hold ends, the entries are released, and
OPERATION_DONE is posted with FAILED behind the events there are (R154). -/
structure RestoreFailedAt (i : Station) (f : Failure) (events : List Event) (s t : State) : Prop where
  controller : t.changeover = .idle
  link : (t.link i).holder = none ∧ (t.link i).inFlight = none
  released : ∀ p : Port, s.portOf i = some p → (t.port p).holder ≠ some .changeover
  formats : ∀ j : Station, (t.stn j).format = (s.stn j).format
  tables : t.activeFormat = s.activeFormat ∧ t.params = s.params
  audit : t.audit.length = s.audit.length ∧ ∀ (m : Nat) (e : AuditEntry), s.audit[m]? = some e →
    EntryReleased s.changeover.stations s.activeFormat false [] s t m e
  events : t.events = postEvent s.guardTime .controller
    (.operationDone .restore .failed (s.changeover.restoreEntry.getD 0) (some f)) events

theorem failOperation_restoreFailed {x : State} (f : Failure) (ha : FailsAlike s x)
    (hstep : s.changeover.step = some st) (hst : st.station = i) (hk : s.changeover.kind = some .restore)
    (hh : (x.link i).holder = some .changeover) (hw : (x.link i).waiters = []) (hf : (x.link i).inFlight = none) :
    RestoreFailedAt i f x.events s (failOperation f x) ∧ (failOperation f x).sched = x.sched
      ∧ ∀ j, (failOperation f x).stn j = x.stn j := by
  subst hst
  obtain ⟨h1, h2, h3, h4, h5⟩ := ha.tables
  rw [failOperation_restore f (ha.step.trans hstep) hw (ha.kind.trans hk), auditRelease_eq]
  refine ⟨⟨?_, ?_, fun p hp => ?_, fun j => ?_, ?_, ⟨?_, fun m e he => ?_⟩, ?_⟩, ?_, fun j => ?_⟩
  · rfl
  · simp [gaveUp_link_idle (h := .changeover) hh hw hf, hf]
  · rw [post_port, modCh_port, State.setAudit_port]
    exact gaveUp_port_holder ((ha.portOf _).trans hp)
  · simp [ha.formats]
  · simp [h1, h2]
  · simp [h3]
  · refine entryReleased_of_released ?_
    simp [h1, h3, h4, h5, ha.stations, he]
  · rw [← ha.time, ← ha.restoreEntry]
    simp [post]
  · simp
  · simp

/-- What a failure record names of the step at hand. -/
theorem failureHere_eq {x : State} (cause : Cause) (seen : Option Seen) (h : x.changeover.step = some st) :
    failureHere cause seen x = failureOf st x.changeover.done cause seen := by
  simp only [failureHere, h]
  cases st <;> rfl

/-! ### CANCEL and CLOSE -/

theorem lowestDiff_eq_some {k d : Nat} {es as : List Word} {x y : Word} (ht : as.take d = es.take d)
    (hx : es[d]? = some x) (hy : as[d]? = some y) (hne : x ≠ y) : lowestDiff k es as = some (k + d, x, y) := by
  induction d generalizing k es as with
  | zero =>
    cases es <;> cases as <;> simp_all [lowestDiff]
  | succ d ih =>
    cases es with
    | nil => cases hx
    | cons e es =>
      cases as with
      | nil => cases hy
      | cons a as =>
        rw [List.take_succ_cons, List.take_succ_cons, List.cons.injEq] at ht
        rw [lowestDiff, if_pos ht.1.symm, ih ht.2 hx hy, Nat.add_right_comm, Nat.add_assoc]

/-- Of words equal from the first on nothing differs. -/
theorem lowestDiff_self (k : Nat) (es : List Word) : lowestDiff k es es = none := by
  induction es generalizing k with
  | nil => rfl
  | cons e es ih => rw [lowestDiff, if_pos rfl, ih]

theorem controllerChecked_refused {row : ChState → Option Reason} {r : Reason} {own : Taken} (hs : s.stage = .guarding)
    (hr : row s.changeover.state = some r) : controllerChecked row s own = (.refused r, s) := by
  rw [controllerChecked, if_neg (by rw [hs]; exact fun h => h rfl), hr]

theorem controllerChecked_own {row : ChState → Option Reason} {own : Taken} (hs : s.stage = .guarding)
    (hr : row s.changeover.state = none) : controllerChecked row s own = own := by
  rw [controllerChecked, if_neg (by rw [hs]; exact fun h => h rfl), hr]

theorem releaseHold_eq (s : State) : releaseHold s = modCh (fun _ => .idle)
    (s.setAudit (s.audit.map (AuditEntry.released s.changeover.stations s.recipes s.images s.activeFormat))) := by
  rw [releaseHold, auditRelease_eq]
  rfl

/-- A transaction of a step that ends REJECT fails the operation (R147, R148, R154). -/
theorem stepResult_reject {x : State} (q : StationRequest) (why : RejectReason) (hstep : x.changeover.step = some st)
    (hstop : x.changeover.stop = none) :
    stepResult i q (.reject why) x = failOperation (failureOf st x.changeover.done (.reject why) none) x := by
  cases q <;> simp only [stepResult, hstep, stepTrouble, hstop, Option.getD_none, failureHere_eq _ _ hstep, TxResult.cause]

/-- So does one that ends NO_REPLY. -/
theorem stepResult_noReply {x : State} (q : StationRequest) (hstep : x.changeover.step = some st)
    (hstop : x.changeover.stop = none) :
    stepResult i q .noReply x = failOperation (failureOf st x.changeover.done .noReply none) x := by
  cases q <;> simp only [stepResult, hstep, stepTrouble, hstop, Option.getD_none, failureHere_eq _ _ hstep, TxResult.cause]

/-- The words of a READ are kept and counted. -/
def Changeover.heardWords (ws : List Word) (c : Changeover) : Changeover :=
  { c with done := c.done + ws.length, got := c.got ++ ws }

/-- A block read whole whose fingerprint is another one fails its operation (R148). -/
theorem stepResult_blockMismatch {x : State} {b o n block pass im : Nat} {ws : List Word}
    (hstep : x.changeover.step = some (.block i block pass im))
    (hall : (imageWords x.images im).length ≤ x.changeover.done + ws.length)
    (hne : imagePrint x.images im ≠ some (fingerprint (x.changeover.got ++ ws))) :
    stepResult i (.read b o n) (.reply (.data ws)) x = failOperation
      (failureOf (.block i block pass im) x.changeover.done .mismatch
        (some (.print (fingerprint (x.changeover.got ++ ws))))) (modCh (Changeover.heardWords ws) x) := by
  have hlt : ¬ (x.changeover.done + ws.length < (imageWords x.images im).length) := Nat.not_lt.mpr hall
  have hstep' : (modCh (Changeover.heardWords ws) x).changeover.step = some (.block i block pass im) := hstep
  have hhere : failureOf (.block i block pass im) (modCh (Changeover.heardWords ws) x).changeover.done .mismatch
      (some (.print (fingerprint (x.changeover.got ++ ws))))
      = failureOf (.block i block pass im) x.changeover.done .mismatch
        (some (.print (fingerprint (x.changeover.got ++ ws)))) := rfl
  rw [← hhere, ← failureHere_eq _ _ hstep']
  simp only [stepResult, hstep, stepRead?]
  refine (if_neg hlt).trans (if_neg ?_)
  exact hne

/-- A restore read whole that differs fails with the lowest offset that does (R154). -/
theorem stepResult_restoreMismatch {x : State} {b o n block d : Nat} {words ws : List Word} {v w : Word}
    (hstep : x.changeover.step = some (.restore i block words)) (hall : words.length ≤ x.changeover.done + ws.length)
    (hdiff : lowestDiff 0 words (x.changeover.got ++ ws) = some (d, v, w)) :
    stepResult i (.read b o n) (.reply (.data ws)) x = failOperation
      (failureOf (.restore i block words) x.changeover.done .mismatch (some (.offset d)))
      (modCh (Changeover.heardWords ws) x) := by
  have hlt : ¬ (x.changeover.done + ws.length < words.length) := Nat.not_lt.mpr hall
  have hstep' : (modCh (Changeover.heardWords ws) x).changeover.step = some (.restore i block words) := hstep
  have hhere : failureOf (.restore i block words) (modCh (Changeover.heardWords ws) x).changeover.done .mismatch
      (some (.offset d)) = failureOf (.restore i block words) x.changeover.done .mismatch (some (.offset d)) := rfl
  rw [← hhere, ← failureHere_eq _ _ hstep']
  simp only [stepResult, hstep, stepRead?]
  refine (if_neg hlt).trans ?_
  simp only [hdiff]
  rfl

/-- A value that reads back otherwise than it was encoded fails its operation (R148). -/
theorem stepResult_valueMismatch {x : State} {b o n key : Nat} {v : Int} {p : Param} {items : List (Nat × Int)}
    {ws : List Word} (hstep : x.changeover.step = some (.values i items))
    (hitem : items[x.changeover.done]? = some (key, v)) (hparam : tableGet x.params key = some p)
    (hne : ws ≠ p.encode v) :
    stepResult i (.read b o n) (.reply (.data ws)) x = failOperation
      (failureOf (.values i items) x.changeover.done .mismatch (some (.words ws))) x := by
  rw [← failureHere_eq _ _ hstep]
  simp only [stepResult, hstep, stepRead?, stepWrite, hitem, hparam]
  exact if_neg hne

/-- Settles O28. -/
theorem holdEnds : Obligations.HoldEnds := by
  refine ⟨fun tag s h hs => ⟨releaseHold s, fun ho => ?_, fun hf => ?_, rfl, rfl, ?_, fun k e he => ?_⟩,
    fun tag s h hs => ⟨fun hi => ⟨?_, ?_⟩, fun hw => ⟨?_, ?_⟩⟩, ?_, ?_⟩
  · exact answers_of_respond rfl h (controllerChecked_own hs (by rw [ho]; rfl))
  · exact answers_of_respond rfl h (controllerChecked_own hs (by rw [hf]; rfl))
  · rw [releaseHold_eq]
    simp
  · dsimp only
    have hk : (releaseHold s).audit[k]?
        = some (e.released s.changeover.stations s.recipes s.images s.activeFormat) := by
      rw [releaseHold_eq]
      simp [he]
    have hin : ∀ hm : e.station ∈ s.changeover.stations, e.released s.changeover.stations s.recipes s.images
        s.activeFormat = (e.woken s.changeover.stations).resolve s.recipes s.images s.activeFormat := fun hm => if_pos hm
    have hwoken : ∀ hm : e.station ∈ s.changeover.stations, e.woken s.changeover.stations
        = if e.state = .suspended then { e with state := .unchecked, lastCheck := none, lastOutcome := none } else e :=
      fun hm => if_congr (by simp [hm]) rfl rfl
    rw [hk]
    refine ⟨fun hm => ?_, fun hm hc => ?_, fun id hm hc hi => ?_, fun hm hc hi => ?_⟩
    · rw [AuditEntry.released, if_neg hm]
    · rw [hin hm, resolve_of_not_format _ _ _ (by rw [woken_cls]; exact hc), hwoken hm]
    · rw [hin hm, resolve_some _ ((woken_cls _ _).trans hc) (by rw [woken_station, woken_block]; exact hi), hwoken hm]
      by_cases hsus : e.state = .suspended <;> simp [hsus]
    · rw [hin hm, resolve_none _ ((woken_cls _ _).trans hc) (by rw [woken_station, woken_block]; exact hi), hwoken hm]
      by_cases hsus : e.state = .suspended
      · simp [hsus]
      · by_cases hd : e.state = .drift <;> simp [hsus, hd]
  · exact answers_of_respond rfl h (controllerChecked_refused hs (by rw [hi]; rfl))
  · exact answers_of_respond rfl h (controllerChecked_refused hs (by rw [hi]; rfl))
  · exact answers_of_respond rfl h (controllerChecked_refused hs (by rcases hw with hw | hw <;> rw [hw] <;> rfl))
  · exact answers_of_respond rfl h (controllerChecked_refused hs (by rcases hw with hw | hw <;> rw [hw] <;> rfl))
  · intro i seq q st kind s ha hon hwork hstep hst hk hne hstop item pass fails
    have hup := up_of_online hon
    have ends : ∀ (c : Instr) (cause : Cause) (seen : Option Seen) (g : Changeover → Changeover)
        (fr : StationRec → StationRec), CountsOnly fr →
        (∀ c, { g c with done := 0, got := [] } = { c with done := 0, got := [] }) →
        exec c s = .next (failOperation (failureOf st s.changeover.done cause seen) (modCh g (s.ended i fr))) →
        fails c cause seen := by
      intro c cause seen g fr hfr hg hx
      have hrec : failureOf st s.changeover.done cause seen
          = { cause := cause, station := some i, item := item, pass := pass, seen := seen } := by
        subst hst
        cases st <;> rfl
      have hF := failOperation_failed (x := modCh g (s.ended i fr)) (failureOf st s.changeover.done cause seen)
        (FailsAlike.ended hfr.format g hg) hstep hst hk hne (by simp [ha.holder]) (by simp [ha.waiters]) (by simp)
      rw [hrec] at hx hF
      obtain ⟨hch, hmixed, ⟨hholder, hflight⟩, hrel, ⟨hact, hpar, haud⟩, hev⟩ := hF
      refine ⟨_, hx, ?_, fun j hj => ?_, fun j hj => ?_, hholder, hflight, hrel, hact, hpar, haud, hev⟩
      · rw [hch]
        simp [hstop]
      · rw [hmixed, if_pos hj]
      · rw [hmixed, if_neg hj]
    refine ⟨fun reason why hwhy => ?_, fun hm => ?_, ?_, ?_⟩
    · refine ends _ _ _ id _ countsOnly_heard (fun _ => rfl) ((exec_rejectReply ha hup hwhy).trans ?_)
      exact congrArg _ (stepResult_reject q why hstep hstop)
    · refine ends _ _ _ id _ (countsOnly_unheard q) (fun _ => rfl) ((exec_replyTimeout ha hup hm).trans ?_)
      exact congrArg _ (stepResult_noReply q hstep hstop)
    · intro b o n block pass' im ws hver hq hlen hblock hall hprint
      subst hq hlen
      refine ends _ _ _ (Changeover.heardWords ws) _ countsOnly_heard (fun _ => rfl) ((exec_dataReply ha hup rfl).trans ?_)
      rw [hblock] at hstep ⊢
      exact congrArg _ (stepResult_blockMismatch (b := b) (o := o) (n := ws.length) hstep hall hprint)
    · intro b o n key v p items ws hver hq hlen hvalues hitem hparam hwords
      subst hq
      refine ends _ _ _ id _ countsOnly_heard (fun _ => rfl) ((exec_dataReply ha hup hlen).trans ?_)
      rw [hvalues] at hstep ⊢
      exact congrArg _ (stepResult_valueMismatch (b := b) (o := o) (n := n) hstep hitem hparam hwords)
  · intro i seq q block k words s ha hon hwork hstep hk hentry hstop fails
    have hup := up_of_online hon
    have ends : ∀ (c : Instr) (cause : Cause) (seen : Option Seen) (g : Changeover → Changeover)
        (fr : StationRec → StationRec), CountsOnly fr →
        (∀ c, { g c with done := 0, got := [] } = { c with done := 0, got := [] }) →
        exec c s = .next (failOperation (failureOf (.restore i block words) s.changeover.done cause seen)
          (modCh g (s.ended i fr))) → fails c cause seen := by
      intro c cause seen g fr hfr hg hx
      obtain ⟨⟨hch, hlink, hrel, hform, ⟨hact, hpar⟩, ⟨hlen, haud⟩, hev⟩, hsched, -⟩ :=
        failOperation_restoreFailed (x := modCh g (s.ended i fr)) (i := i) (failureOf (.restore i block words) s.changeover.done cause seen)
          (FailsAlike.ended hfr.format g hg) hstep rfl hk (by simp [ha.holder]) (by simp [ha.waiters]) (by simp)
      rw [hentry] at hev
      exact ⟨_, hx, hch, hlink.1, hlink.2, hrel, hform, hact, hpar, hsched, hlen, haud, hev⟩
    refine ⟨fun reason why hwhy => ?_, fun hm => ?_, ?_⟩
    · refine ends _ _ _ id _ countsOnly_heard (fun _ => rfl) ((exec_rejectReply ha hup hwhy).trans ?_)
      exact congrArg _ (stepResult_reject q why hstep hstop)
    · refine ends _ _ _ id _ (countsOnly_unheard q) (fun _ => rfl) ((exec_replyTimeout ha hup hm).trans ?_)
      exact congrArg _ (stepResult_noReply q hstep hstop)
    · intro b o n d ws x y hver hq hlen hall htake hx hy hxy
      subst hq hlen
      have hdiff := lowestDiff_eq_some (k := 0) htake hx hy hxy
      rw [Nat.zero_add] at hdiff
      refine ends _ _ _ (Changeover.heardWords ws) _ countsOnly_heard (fun _ => rfl) ((exec_dataReply ha hup rfl).trans ?_)
      exact congrArg _ (stepResult_restoreMismatch (b := b) (o := o) (n := ws.length) hstep hall hdiff)

end Sys2Proof.Machine
end

section
/-! SUPPORT. The inputs followed. -/

namespace Sys2Proof.Machine

open Sys2Proof

variable {s t : State} {i : Station} {st : Step}

theorem setInput_setInput (s : State) (x : InputId) (a b : InputRec) : (s.setInput x a).setInput x b = s.setInput x b := by
  cases x <;> rfl

/-- No WRITE of the controller's step is in flight. -/
theorem writeInFlight_false (hstep : s.changeover.step = some st)
    (h : ∀ x, (s.link st.station).inFlight = some x → x.owner = some .changeover → ∀ b o ws, x.request ≠ .write b o ws) :
    writeInFlight s = false := by
  simp only [writeInFlight, hstep]
  split
  · next seq b o ws ms hx => exact absurd rfl (h _ hx rfl b o ws)
  · rfl

/-- The state with KEY accepted away from MAINT. -/
def State.keyLeft (s : State) : State := s.setInput .key { s.inputs.key with accepted := false }

/-- KEY leaves MAINT with its edges unreported: the controller alone acts (R147). -/
theorem acceptLevel_key_left (s : State) (hraw : s.inputs.key.raw = false) (hmode : s.inputs.key.mode = .none) :
    acceptLevel .key s = failFromOutside (failureHere .interlock none s.keyLeft) s.keyLeft := by
  have hset : s.setInput .key { s.inputs.get .key with accepted := (s.inputs.get .key).raw } = s.keyLeft := by
    simp only [State.keyLeft, Inputs.get, hraw]
  have hrep : (s.inputs.get .key).mode.reports (s.inputs.get .key).raw = false := by
    simp only [Inputs.get, hmode, EdgeMode.reports]
  have hlow : (s.inputs.get .key).raw = false := hraw
  simp only [acceptLevel, hset, hrep, Bool.false_eq_true, if_false]
  rw [hlow]

/-- Settles O50. -/
theorem inputsFollowed : Obligations.InputsFollowed := by
  refine ⟨fun x level s hp hraw hidle => ⟨fun hc => ?_, fun hc hl hm => ?_⟩, fun x s hp hraw hidle => ?_, ?_⟩
  · refine congrArg Host.Outcome.next ?_
    simp only [rawChange, if_neg hraw]
    refine if_neg ?_
    rintro ⟨-, h0, hne⟩
    exact hc.elim (fun h => h h0) hne
  · refine congrArg Host.Outcome.next ?_
    simp only [rawChange, if_neg hraw]
    have happ : (s.setInput x { s.inputs.get x with raw := level, hold := 0 }).changeover.state ≠ .applying := by
      show s.changeover.state ≠ .applying
      rw [hidle]
      exact nofun
    rw [if_pos ⟨hp, hc, hl⟩, acceptLevel_of_not_applying x _ happ]
    simp only [inputs_get_setInput_self, setInput_setInput, hm, EdgeMode.reports, if_true]
  · refine congrArg Host.Outcome.next ?_
    have happ : s.changeover.state ≠ .applying := by rw [hidle]; exact nofun
    rw [debounceExpiry, whenRunning_running _ s hp, if_neg hraw, acceptLevel_of_not_applying x s happ]
    exact if_congr (reports_iff _ _) rfl rfl
  · intro s st hp hacc hraw hmode happ hk hstep hw hfl
    have hx : exec (.inputDebounceExpiry .key) s
        = .next (failOperation (failureOf st s.changeover.done .interlock none) s.keyLeft) := by
      refine congrArg Host.Outcome.next ?_
      have hne : ¬ (s.inputs.get .key).raw = (s.inputs.get .key).accepted := by
        show ¬ s.inputs.key.raw = s.inputs.key.accepted
        rw [hraw, hacc]
        exact Bool.false_ne_true
      have hwr : writeInFlight s.keyLeft = false := writeInFlight_false (s := s.keyLeft) hstep hfl
      rw [debounceExpiry, whenRunning_running _ s hp, if_neg hne, acceptLevel_key_left s hraw hmode,
        failureHere_eq (x := s.keyLeft) _ _ hstep, failFromOutside]
      exact (if_pos happ).trans (if_neg (by rw [hwr]; exact Bool.false_ne_true))
    rw [failOperation_eq (s := s.keyLeft) (failureOf st s.changeover.done .interlock none) hstep hw hk (by decide)] at hx
    refine ⟨_, _, hx, ?_, rfl, rfl, ?_, ?_, fun i hi => ?_, fun i hi => ?_, ?_, ?_⟩
    · simp [State.keyLeft, State.setInput, Inputs.set]
    · cases st <;> rfl
    · cases st <;> rfl
    · rw [post_stn, modCh_stn, setFormats_format]
      exact if_pos hi
    · rw [post_stn, modCh_stn, setFormats_format, gaveUp_stn]
      exact if_neg hi
    · exact congrArg (fun c => (Changeover.failedWith (failureOf st s.changeover.done .interlock none) c).stations)
        ((setFormats_changeover _ _ _).trans (gaveUp_changeover s.keyLeft _ _ _))
    · simp only [post, modCh_guardTime, modCh_events, setFormats_guardTime, setFormats_events, gaveUp_guardTime, gaveUp_events]
      rfl

end Sys2Proof.Machine
end

section
/-! SUPPORT. Requests sent on a link, the steps of the controller that begin, and the requests of the changeover
controller and of the access channels. -/

namespace Sys2Proof.Machine

open Sys2Proof

variable {s t : State} {i j : Station} {u : LinkUser} {q : StationRequest} {st : Step}

/-! ### Requests sent -/

@[simp] theorem sendRequest_link_self :
    (sendRequest i q u s).link i = { s.link i with inFlight := some (s.sending i q u) } := by
  simp only [sendRequest, link_modLink_self]
  rfl

theorem sendRequest_link_ne (h : j ≠ i) : (sendRequest i q u s).link j = s.link j := by
  rw [sendRequest, link_modLink_ne _ _ (Ne.symm h)]
  rfl

@[simp] theorem sendRequest_stn_self :
    (sendRequest i q u s).stn i = { s.stn i with nextSeq := (s.stn i).nextSeq + 1#8 } := by
  simp [sendRequest]

theorem sendRequest_stn_ne (h : j ≠ i) : (sendRequest i q u s).stn j = s.stn j := by
  exact stn_modStn_ne s (fun r => { r with nextSeq := r.nextSeq + 1#8 }) (Ne.symm h)

@[simp] theorem sendRequest_power : (sendRequest i q u s).power = s.power := rfl
@[simp] theorem sendRequest_guardTime : (sendRequest i q u s).guardTime = s.guardTime := rfl
@[simp] theorem sendRequest_stage : (sendRequest i q u s).stage = s.stage := rfl
@[simp] theorem sendRequest_portMap : (sendRequest i q u s).portMap = s.portMap := rfl
@[simp] theorem sendRequest_roster : (sendRequest i q u s).roster = s.roster := rfl
@[simp] theorem sendRequest_ports : (sendRequest i q u s).ports = s.ports := rfl
@[simp] theorem sendRequest_timing : (sendRequest i q u s).timing = s.timing := rfl
@[simp] theorem sendRequest_params : (sendRequest i q u s).params = s.params := rfl
@[simp] theorem sendRequest_images : (sendRequest i q u s).images = s.images := rfl
@[simp] theorem sendRequest_audit : (sendRequest i q u s).audit = s.audit := rfl
@[simp] theorem sendRequest_sched : (sendRequest i q u s).sched = s.sched := rfl
@[simp] theorem sendRequest_recipes : (sendRequest i q u s).recipes = s.recipes := rfl
@[simp] theorem sendRequest_activeFormat : (sendRequest i q u s).activeFormat = s.activeFormat := rfl
@[simp] theorem sendRequest_changeover : (sendRequest i q u s).changeover = s.changeover := rfl
@[simp] theorem sendRequest_channels : (sendRequest i q u s).channels = s.channels := rfl
@[simp] theorem sendRequest_eng : (sendRequest i q u s).eng = s.eng := rfl
@[simp] theorem sendRequest_events : (sendRequest i q u s).events = s.events := rfl
@[simp] theorem sendRequest_port (p : Port) : (sendRequest i q u s).port p = s.port p := rfl
@[simp] theorem sendRequest_engp (e : EngId) : (sendRequest i q u s).engp e = s.engp e := rfl
@[simp] theorem sendRequest_chan (c : ChanId) : (sendRequest i q u s).chan c = s.chan c := rfl
@[simp] theorem sendRequest_portOf (j : Station) : (sendRequest i q u s).portOf j = s.portOf j := rfl

/-- An operation that takes an idle link and sends its request. -/
def State.asks (s : State) (i : Station) (q : StationRequest) (u : LinkUser) : State :=
  sendRequest i q u (s.heldBy i u)

@[simp] theorem asks_link_self :
    (s.asks i q u).link i = { s.link i with holder := some u, inFlight := some (s.sending i q u) } := by
  simp only [State.asks, sendRequest_link_self, State.heldBy, link_modLink_self]
  rfl

theorem asks_link_ne (h : j ≠ i) : (s.asks i q u).link j = s.link j := by
  rw [State.asks, sendRequest_link_ne h, State.heldBy, link_modLink_ne _ _ (Ne.symm h)]

@[simp] theorem asks_stn_self : (s.asks i q u).stn i = { s.stn i with nextSeq := (s.stn i).nextSeq + 1#8 } := by
  simp [State.asks, State.heldBy]

theorem asks_stn_ne (h : j ≠ i) : (s.asks i q u).stn j = s.stn j := by
  rw [State.asks, sendRequest_stn_ne h, State.heldBy]
  rfl

theorem sameBut_sendRequest (i : Station) (q : StationRequest) (u : LinkUser) (s : State) :
    SameBut i s (sendRequest i q u s) := ⟨rfl, fun _ h => ⟨sendRequest_stn_ne h, sendRequest_link_ne h⟩⟩

theorem sameBut_asks (i : Station) (q : StationRequest) (u : LinkUser) (s : State) : SameBut i s (s.asks i q u) :=
  ⟨rfl, fun _ h => ⟨asks_stn_ne h, asks_link_ne h⟩⟩

/-! ### The words of a block with its current values -/

theorem length_overlay (ps : List (Nat × Param)) (i : Station) (b k : Nat) (ws : List Word) :
    (overlay ps i b k ws).length = ws.length := by
  induction ws generalizing k with
  | nil => rfl
  | cons w ws ih => rw [overlay, List.length_cons, List.length_cons, ih]

/-- The word at an offset: a parameter word has the current value's, every other one is as it was (R119). -/
theorem overlay_getElem? (ps : List (Nat × Param)) (i : Station) (b k : Nat) {ws : List Word} {j : Nat} {w : Word}
    (hw : ws[j]? = some w) :
    (overlay ps i b k ws)[j]? = some
      (match paramAt ps i b (k + j) with
       | some (_, p) => (p.encode p.current).getD (k + j - p.offset) w
       | none => w) := by
  induction ws generalizing k j with
  | nil => cases hw
  | cons x ws ih =>
    cases j with
    | zero =>
      cases hw
      rfl
    | succ j =>
      rw [overlay, List.getElem?_cons_succ, ih (k + 1) hw, Nat.add_right_comm, Nat.add_assoc]

/-! ### Steps that begin -/

/-- The record of a step at its beginning. -/
def Changeover.fresh (c : Changeover) : Changeover := { c with phase := .waiting, done := 0, got := [] }

/-- The record of a step whose STATE is asked for. -/
def Changeover.checking (c : Changeover) : Changeover := { c with phase := .checking, done := 0, got := [] }

/-- A step of APPLYING on an idle link takes it and asks for STATE (R145). -/
theorem beginStep_applying (happ : s.changeover.state = .applying) (hstep : s.changeover.step = some st)
    (hon : (s.stn st.station).state = .online) (hi : s.idleLink st.station) :
    beginStep s = modCh Changeover.checking (s.asks st.station .state .changeover) := by
  have hstep' : (modCh Changeover.fresh s).changeover.step = some st := hstep
  have hmay : mayPlace (s.stn st.station).state .changeover = true := by rw [hon]; rfl
  have hstart : startUser st.station .changeover ((modCh Changeover.fresh s).heldBy st.station .changeover)
      = modCh Changeover.checking (s.asks st.station .state .changeover) := by
    have hst : ((modCh Changeover.fresh s).heldBy st.station .changeover).changeover.step = some st := hstep
    have hap : ((modCh Changeover.fresh s).heldBy st.station .changeover).changeover.state = .applying := happ
    simp only [startUser, startStep, hap, hst]
    rfl
  have hplace : place st.station .changeover (modCh Changeover.fresh s)
      = modCh Changeover.checking (s.asks st.station .state .changeover) := by
    rw [place_idle (s := modCh Changeover.fresh s) (u := .changeover) hi, hstart]
    rw [hstart]
    exact sendRequest_occupied _ _ _ _
  have hb : beginStep s = if mayPlace (s.stn st.station).state .changeover = true then
      place st.station .changeover (modCh Changeover.fresh s)
    else failOperation (failureHere (if (s.stn st.station).state = .quarantined then .quarantine else .link) none
      (modCh Changeover.fresh s)) (modCh Changeover.fresh s) := by
    unfold beginStep
    simp only
    have hst : (modCh (fun c => { c with phase := .waiting, done := 0, got := [] }) s).changeover.step = some st := hstep
    rw [hst]
    rfl
  rw [hb, if_pos hmay, hplace]

/-- The record of an operation that begins APPLYING with a work list. -/
def Changeover.launched (work : List Step) (c : Changeover) : Changeover :=
  { c with state := .applying, work := work, position := some 0 }

/-- Work begun on an idle link (R144, R145). -/
theorem beginWork_applying {work : List Step} (hwork : s.changeover.work = st :: work)
    (hon : (s.stn st.station).state = .online) (hi : s.idleLink st.station) :
    beginWork .applying s
      = modCh Changeover.checking ((modCh (Changeover.launched (st :: work)) s).asks st.station .state .changeover) := by
  have hs : modCh (fun c => { c with state := .applying, position := some 0 }) s
      = modCh (Changeover.launched (st :: work)) s := by
    simp only [modCh, Changeover.launched, hwork]
  rw [beginWork, hs]
  exact beginStep_applying (s := modCh (Changeover.launched (st :: work)) s) rfl rfl hon hi

end Sys2Proof.Machine
end

section
/-! SUPPORT. The requests of the changeover controller: OPEN, APPLY, REVERT and RESTORE BLOCK. -/

namespace Sys2Proof.Machine

open Sys2Proof

variable {s t : State} {i j : Station} {q : StationRequest} {u : LinkUser} {st : Step} {set : List Station}

/-! ### The interlock and the hold -/

/-- The interlock of the inputs and the stations (R141). -/
theorem interlockRefusal_none (hk : s.inputs.key.accepted = true) (hl : s.inputs.lineRun.accepted = false)
    (h : ∀ i ∈ set, (s.stn i).state = .online ∧ ((s.stn i).mode = some .stop ∨ (s.stn i).mode = some .fault)) :
    interlockRefusal set s = none := by
  have hon : lowestOf set (fun i => !s.online i) = none :=
    List.find?_eq_none.mpr fun i hi => by simp [State.online, (h i hi).1]
  have hmode : lowestOf set (fun i => s.mayRun i) = none :=
    List.find?_eq_none.mpr fun i hi => by
      rcases (h i hi).2 with hm | hm <;> simp [State.mayRun, hm]
  have hin : s.interlockOk = true := by simp [State.interlockOk, hk, hl]
  simp only [interlockRefusal, hin, not_true_eq_false, if_false, hon, hmode]

theorem interlockRefusal_inputs (h : s.inputs.key.accepted = false ∨ s.inputs.lineRun.accepted = true) :
    interlockRefusal set s = some (.refused .interlock) :=
  if_pos (by rcases h with h | h <;> simp [State.interlockOk, h])

/-- With no check in progress a hold suspends the entries of its stations alone (R121). -/
theorem auditHold_no_check (hc : s.sched.check = none) : auditHold set s = suspendEntries set s := by
  have h : (suspendEntries set s).sched.check = none := hc
  rw [auditHold, holdCheck, h]

/-! ### OPEN CHANGEOVER -/

theorem recipeStations_eq {ps : List (Nat × Param)} {r : Recipe} {S : List Station}
    (hs : S.Pairwise (fun i j => i < j))
    (h : ∀ i : Station, i ∈ S ↔ (∃ it ∈ r.blocks, it.station = i)
      ∨ ∃ x ∈ r.values, ∃ p, tableGet ps x.1 = some p ∧ p.station = i) : recipeStations ps r = S := by
  have hsorted : (recipeStations ps r).Pairwise (fun i j => i < j) :=
    (List.pairwise_lt_finRange 8).sublist List.filter_sublist
  refine List.Pairwise.eq_of_mem_iff (r := fun i j : Station => i < j) hsorted hs fun i => ?_
  rw [h i, recipeStations, List.mem_filter, Bool.or_eq_true, List.any_eq_true, List.any_eq_true]
  simp only [List.mem_finRange, true_and, decide_eq_true_eq, valueStation, Option.map_eq_some_iff]

/-- PERMIT is deasserted while the controller is not IDLE (R38). -/
theorem permit_of_changeover (h : s.changeover.state ≠ .idle) : s.permit = false := by
  simp [State.permit, h]

/-- The record of an open changeover. -/
def Changeover.openedOn (f : Nat) (set : List Station) : Changeover :=
  { Changeover.idle with state := .opened, kind := some .changeover, target := some f, stations := set }

theorem openEffects_eq (f : Nat) (hc : s.sched.check = none) :
    openEffects f set s = suspendEntries set (modCh (fun _ => Changeover.openedOn f set) s) :=
  auditHold_no_check (s := modCh (fun _ => Changeover.openedOn f set) s) hc

/-- Settles O26. -/
theorem changeoverOpened : Obligations.ChangeoverOpened := by
  intro tag f s r S h hs hidle h1 h12 hr hne hsort hS
  have hrange : formatInRange f = true := by simp [formatInRange, h1, h12]
  have hrs := recipeStations_eq hsort hS
  have hopen : ∀ {a : Taken}, openChecked f s = a → respond (.openChangeover f) s = a := by
    intro a ha
    refine (if_pos hrange).trans ((controllerChecked_own hs (by rw [hidle]; rfl)).trans ha)
  refine ⟨fun hk hl hready hcheck => ?_, fun hin => ?_⟩
  · have hslot : lowestOf S (fun i => (s.stn i).slot.isSome) = none :=
      List.find?_eq_none.mpr fun i hi => by simp [(hready i hi).2.2]
    have hmode := interlockRefusal_none (set := S) hk hl fun i hi => ⟨(hready i hi).1, (hready i hi).2.1⟩
    refine ⟨openEffects f S s, answers_of_respond rfl h (hopen ?_), ?_, ?_, ?_, ?_⟩
    · simp only [openChecked, hr, hrs, if_neg hne, hmode, hslot]
    all_goals rw [openEffects_eq f hcheck]
    · rfl
    · rfl
    · exact permit_of_changeover (ne_of_eq_of_ne (b := ChState.opened) rfl (by decide))
    · rfl
  · refine answers_of_respond rfl h (hopen ?_)
    simp only [openChecked, hr, hrs, if_neg hne, interlockRefusal_inputs hin]

/-! ### APPLY and REVERT -/

/-- Work begins with its first step on an idle link (R144, R145, R152). -/
theorem launch_cons {work : List Step} (hon : (s.stn st.station).state = .online) (hi : s.idleLink st.station) :
    launch (st :: work) s
      = modCh Changeover.checking ((modCh (Changeover.launched (st :: work)) s).asks st.station .state .changeover) := by
  have hx := beginWork_applying (s := modCh (fun c => { c with state := .applying, work := st :: work }) s) rfl hon hi
  have hl : launch (st :: work) s = beginWork .applying (modCh (fun c => { c with state := .applying, work := st :: work }) s) := by
    simp only [launch, reduceCtorEq, if_false]
  exact hl.trans hx

/-- The link of a step's station once its STATE is asked for. -/
theorem asked_link (f g : Changeover → Changeover) :
    (modCh f ((modCh g s).asks i q u)).link i = { s.link i with holder := some u, inFlight := some (s.sending i q u) } := by
  rw [modCh_link, asks_link_self]
  rfl

/-- The controller's record set aside, a state is the same but for a station if it is so from another record. -/
theorem SameBut.withChangeover {f g : Changeover → Changeover} (h : SameBut i (modCh g s) t) :
    SameBut i s { modCh f t with changeover := s.changeover } :=
  ⟨(congrArg (fun x : State => { x with changeover := s.changeover }) h.1 :), h.2⟩

theorem SameBut.withAudit {es : List AuditEntry} (h : SameBut i (s.setAudit es) t) :
    SameBut i s { t with audit := s.audit } :=
  ⟨(congrArg (fun x : State => { x with audit := s.audit }) h.1 :), h.2⟩

theorem modCh_modCh (f g : Changeover → Changeover) (s : State) : modCh f (modCh g s) = modCh (fun c => f (g c)) s := rfl

theorem sameBut_asked (i : Station) (q : StationRequest) (u : LinkUser) (f g : Changeover → Changeover) (s : State) :
    SameBut i s { modCh f ((modCh g s).asks i q u) with changeover := s.changeover } :=
  (sameBut_asks i q u (modCh g s)).withChangeover

theorem sameBut_asked_audit (i : Station) (q : StationRequest) (u : LinkUser) (f g : Changeover → Changeover)
    (es : List AuditEntry) (s : State) :
    SameBut i s { modCh f ((modCh g (s.setAudit es)).asks i q u) with changeover := s.changeover, audit := s.audit } :=
  SameBut.withAudit (t := { modCh f ((modCh g (s.setAudit es)).asks i q u) with changeover := s.changeover })
    (sameBut_asked i q u f g (s.setAudit es))

theorem asked_changeover (f g : Changeover → Changeover) :
    (modCh f ((modCh g s).asks i q u)).changeover = f (g s.changeover) := rfl

theorem asked_events (f g : Changeover → Changeover) : (modCh f ((modCh g s).asks i q u)).events = s.events := rfl

/-- The work list of the claim is the one the controller builds (R144). -/
theorem workList_eq (ps : List (Nat × Param)) (r : Recipe) (set : List Station) (values : Station → List (Nat × Int))
    (hv : ∀ i, values i = r.values.filter (fun x => match tableGet ps x.1 with
      | some p => decide (p.station = i)
      | none => false)) :
    workList ps r set = passSteps r set 1 ++ passSteps r set 2 ++ passSteps r set 3
      ++ (set.filter (fun i => decide (values i ≠ []))).map (fun i => Step.values i (values i)) := by
  have hval : ∀ i, stationValues ps r i = values i := by
    intro i
    rw [hv, stationValues]
    refine List.filter_congr fun x _ => ?_
    simp only [valueStation]
    split
    · next p hp => simp [hp]
    · next hp => simp [hp]
  have htest : (fun i => !(stationValues ps r i).isEmpty) = fun i => decide (values i ≠ []) := by
    funext i
    rw [hval]
    cases values i <;> simp
  rw [workList, valueSteps, htest]
  simp only [hval]

/-- A revert with nothing to write succeeds at once (R152). -/
theorem revert_nothing (hk : s.changeover.kind = some .revert) (hw : s.changeover.work = []) :
    (succeed s).changeover = .idle ∧ (succeed s).params = s.params
      ∧ (∀ i ∈ s.changeover.stations, ((succeed s).stn i).format = .fmt (s.changeover.target.getD 0))
      ∧ (succeed s).events = postEvent s.guardTime .controller
          (.operationDone .revert .reverted (s.changeover.target.getD 0) none) s.events := by
  have hvals : revertValues s = [] := by simp [revertValues, hw]
  have heq : succeed s = revertSuccess s := by simp only [succeed, Changeover.kindOf, hk, Option.getD_some]
  rw [heq, revertSuccess]
  simp only [hvals, auditRelease_eq]
  refine ⟨rfl, ?_, fun i hi => ?_, ?_⟩
  · exact (setFormats_params _ _ _).trans rfl
  · exact (setFormats_format _ _ _ i).trans (if_pos hi)
  · exact congrArg₂ (fun a b => postEvent a _ _ b) ((setFormats_guardTime _ _ _).trans rfl)
      ((setFormats_events _ _ _).trans rfl)

/-- Settles O27. -/
theorem changeoverApplied : Obligations.ChangeoverApplied := by
  unfold Obligations.ChangeoverApplied
  intro blocks values work
  have hwork : ∀ (s : State) (r : Recipe), workList s.params r s.changeover.stations = work s r := fun s r =>
    workList_eq s.params r s.changeover.stations (values s r) (fun _ => rfl)
  refine ⟨?_, ?_, ?_, ?_⟩
  · intro tag s w ws r h hs hopen hk hl hready hr hws hon hh hw hf
    have hbuild : buildWork (s.changeover.target.getD 0) s = w :: ws := by simp only [buildWork, hr, hwork, hws]
    refine ⟨launch (w :: ws) s, answers_of_respond rfl h ((controllerChecked_own hs (by rw [hopen]; rfl)).trans ?_), ?_⟩
    · simp only [interlockRefusal_none hk hl hready, hbuild]
    · rw [launch_cons hon ⟨hh, hw, hf⟩]
      rw [asked_link, asked_changeover]
      exact ⟨rfl, rfl, rfl, rfl, rfl, rfl, rfl, rfl, sameBut_asked _ _ _ _ _ s, asked_events _ _⟩
  · intro tag s w ws r h hs hfailed hact hk hl hready hr hws hon hh hw hf
    have hbuild : buildWork s.activeFormat s = w :: ws := by simp only [buildWork, hr, hwork, hws]
    refine ⟨revertEffects s, answers_of_respond rfl h ((controllerChecked_own hs (by rw [hfailed]; rfl)).trans ?_), ?_⟩
    · simp only [if_neg hact, interlockRefusal_none hk hl hready]
    · have hre : revertEffects s = launch (w :: ws)
          (modCh (fun c => { c with kind := some .revert, target := some s.activeFormat, failure := none }) s) := by
        rw [revertEffects, hbuild]
      have hl := launch_cons (work := ws)
        (s := modCh (fun c => { c with kind := some .revert, target := some s.activeFormat, failure := none }) s) hon
        ⟨hh, hw, hf⟩
      rw [hre, hl, modCh_modCh]
      rw [asked_link, asked_changeover]
      exact ⟨rfl, rfl, rfl, rfl, rfl, rfl, rfl, rfl, sameBut_asked _ _ _ _ _ s, asked_events _ _⟩
  · intro tag s r h hs hfailed hact hk hl hready hr hws
    have hbuild : buildWork s.activeFormat s = [] := by simp only [buildWork, hr, hwork, hws]
    have hre : revertEffects s = succeed
        (modCh (fun c => { c with kind := some .revert, target := some s.activeFormat, failure := none,
                                  state := .applying, work := [] }) s) := by
      rw [revertEffects, hbuild]
      rfl
    refine ⟨revertEffects s, answers_of_respond rfl h ((controllerChecked_own hs (by rw [hfailed]; rfl)).trans ?_), ?_⟩
    · simp only [if_neg hact, interlockRefusal_none hk hl hready]
    · rw [hre]
      exact revert_nothing rfl rfl
  · intro tag s h hs hfailed hact
    exact answers_of_respond rfl h ((controllerChecked_own hs (by rw [hfailed]; rfl)).trans (if_pos hact))

/-! ### RESTORE BLOCK -/

theorem unrestorable_iff (e : AuditEntry) : e.unrestorable = true ↔
    e.state = .notApplicable ∨ e.cls = some .format ∧ e.state = .drift ∧ e.resolved = none := by
  simp [AuditEntry.unrestorable, and_assoc]

/-- The record of a restore that begins. -/
def Changeover.restoring (k : Nat) (e : AuditEntry) (words : List Word) : Changeover :=
  { Changeover.idle with
    state := .applying, kind := some .restore, stations := [e.station], restoreEntry := some k,
    work := [.restore e.station e.block words] }

/-- A restore begins on an idle link with no check in progress (R153). -/
theorem restoreEffects_eq (k : Nat) (e : AuditEntry) (hc : s.sched.check = none)
    (hon : (s.stn e.station).state = .online) (hi : s.idleLink e.station) :
    restoreEffects k e s = modCh Changeover.checking
      ((modCh (fun _ => Changeover.launched [.restore e.station e.block (referenceWords s.params s.images e)]
          (Changeover.restoring k e (referenceWords s.params s.images e)))
        (s.setAudit (suspendEntries [e.station] s).audit)).asks e.station .state .changeover) := by
  have hhold := auditHold_no_check (set := [e.station])
    (s := modCh (fun _ => Changeover.restoring k e (referenceWords s.params s.images e)) s) hc
  have hb := beginWork_applying (s := suspendEntries [e.station]
    (modCh (fun _ => Changeover.restoring k e (referenceWords s.params s.images e)) s)) rfl hon hi
  rw [← hhold] at hb
  exact hb.trans (by rw [hhold]; rfl)

/-- Settles O29. -/
theorem restoreBegun : Obligations.RestoreBegun := by
  refine ⟨fun tag k e s h hs hidle hk he => ?_, fun tag k s h hs hidle hk he => ?_⟩
  · intro nothing inputs
    have hun : e.unrestorable = true ↔ nothing := unrestorable_iff e
    have hnot : ¬ nothing → e.unrestorable = false := fun hn => Bool.eq_false_iff.mpr fun hb => hn (hun.mp hb)
    have hin : s.interlockOk = true ↔ inputs := by simp [State.interlockOk, inputs]
    have hresp : ∀ {a : Taken}, checked
        [(e.unrestorable, .unknown), (!s.interlockOk, .interlock), (!s.online e.station, .interlock),
          ((s.stn e.station).slot.isSome, .busy)] s (.ok .none, restoreEffects k e s) = a →
        respond (.restoreBlock k) s = a := by
      intro a ha
      refine (if_pos hk).trans ((controllerChecked_own hs (by rw [hidle]; rfl)).trans ?_)
      simp only [restoreChecked, he, ha]
    refine ⟨fun hn hi hon hslot hc hh hw hf => ?_, fun hn => ?_, fun hn hor => ?_, fun hn hi hon hslot => ?_⟩
    · have hok : respond (.restoreBlock k) s = (.ok .none, restoreEffects k e s) := by
        refine hresp ((checked_pass (hnot hn)).trans ?_)
        rw [checked_pass (by simp [hin.mpr hi]), checked_pass (by simp [State.online, hon]), checked_pass (by simp [hslot]),
          checked_nil]
      refine ⟨restoreEffects k e s, referenceWords s.params s.images e, answers_of_respond rfl h hok, ?_⟩
      · rw [restoreEffects_eq k e hc hon ⟨hh, hw, hf⟩]
        refine ⟨rfl, fun id hcls hid => ?_, fun id hcls hid => ?_, fun id hcls hid => ?_,
          by rw [asked_link], by rw [asked_link]; rfl, ?_, ?_, asked_events _ _⟩
        · simp only [referenceWords, hcls, hid]
        · simp only [referenceWords, hcls, hid]
        · simp only [referenceWords, hcls, hid]
          refine ⟨length_overlay _ _ _ _ _, fun j w hw => ?_⟩
          refine (overlay_getElem? _ _ _ 0 hw).trans ?_
          simp only [Nat.zero_add] <;> rfl
        · refine List.map_congr_left fun x _ => ?_
          simp only [List.mem_singleton]
        · exact sameBut_asked_audit _ _ _ _ _ _ s
    · exact answers_of_respond rfl h (hresp (checked_fail (hun.mpr hn)))
    · refine answers_of_respond rfl h (hresp ((checked_pass (hnot hn)).trans ?_))
      by_cases hi : inputs
      · exact (checked_pass (by simp [hin.mpr hi])).trans
          (checked_fail (by simp [State.online, hor.resolve_left (fun hni => hni hi)]))
      · exact checked_fail (by simpa using fun hb => hi (hin.mp hb))
    · exact answers_of_respond rfl h (hresp ((checked_pass (hnot hn)).trans
        (by rw [checked_pass (by simp [hin.mpr hi]), checked_pass (by simp [State.online, hon]),
              checked_fail (Option.isSome_iff_ne_none.mpr hslot)])))
  · refine answers_of_respond rfl h ((if_pos hk).trans ((controllerChecked_own hs (by rw [hidle]; rfl)).trans ?_))
    simp only [restoreChecked, he]

end Sys2Proof.Machine
end

section
/-! SUPPORT. A station's state changed with the monitor of its port, RELEASE STATION and the access channels. -/

namespace Sys2Proof.Machine

open Sys2Proof

variable {s t : State} {i j : Station} {c : ChanId} {x : StState} {p : Port}

/-! ### A station's state changed -/

theorem setStState_frame (i : Station) (x : StState) (s : State) :
    setStState i x s = (s.modStn i (fun r => { r with state := x })).setPorts (setStState i x s).ports := by
  unfold setStState
  simp only
  split <;> rfl

@[simp] theorem setStState_power : (setStState i x s).power = s.power := (congrArg State.power (setStState_frame i x s) :)
@[simp] theorem setStState_guardTime : (setStState i x s).guardTime = s.guardTime := (congrArg State.guardTime (setStState_frame i x s) :)
@[simp] theorem setStState_stage : (setStState i x s).stage = s.stage := (congrArg State.stage (setStState_frame i x s) :)
@[simp] theorem setStState_portMap : (setStState i x s).portMap = s.portMap := (congrArg State.portMap (setStState_frame i x s) :)
@[simp] theorem setStState_roster : (setStState i x s).roster = s.roster := (congrArg State.roster (setStState_frame i x s) :)
@[simp] theorem setStState_links : (setStState i x s).links = s.links := (congrArg State.links (setStState_frame i x s) :)
@[simp] theorem setStState_timing : (setStState i x s).timing = s.timing := (congrArg State.timing (setStState_frame i x s) :)
@[simp] theorem setStState_params : (setStState i x s).params = s.params := (congrArg State.params (setStState_frame i x s) :)
@[simp] theorem setStState_images : (setStState i x s).images = s.images := (congrArg State.images (setStState_frame i x s) :)
@[simp] theorem setStState_audit : (setStState i x s).audit = s.audit := (congrArg State.audit (setStState_frame i x s) :)
@[simp] theorem setStState_sched : (setStState i x s).sched = s.sched := (congrArg State.sched (setStState_frame i x s) :)
@[simp] theorem setStState_recipes : (setStState i x s).recipes = s.recipes := (congrArg State.recipes (setStState_frame i x s) :)
@[simp] theorem setStState_activeFormat : (setStState i x s).activeFormat = s.activeFormat := (congrArg State.activeFormat (setStState_frame i x s) :)
@[simp] theorem setStState_changeover : (setStState i x s).changeover = s.changeover := (congrArg State.changeover (setStState_frame i x s) :)
@[simp] theorem setStState_channels : (setStState i x s).channels = s.channels := (congrArg State.channels (setStState_frame i x s) :)
@[simp] theorem setStState_eng : (setStState i x s).eng = s.eng := (congrArg State.eng (setStState_frame i x s) :)
@[simp] theorem setStState_events : (setStState i x s).events = s.events := (congrArg State.events (setStState_frame i x s) :)
@[simp] theorem setStState_link (j : Station) : (setStState i x s).link j = s.link j :=
  congrArg (fun v : Vector LinkRec 8 => v[j]) setStState_links
@[simp] theorem setStState_engp (e : EngId) : (setStState i x s).engp e = s.engp e :=
  congrArg (fun v : Vector EngPort 4 => v[e]) setStState_eng
@[simp] theorem setStState_portOf (j : Station) : (setStState i x s).portOf j = s.portOf j := by
  simp only [State.portOf, setStState_portMap]

@[simp] theorem setStState_stn_self : (setStState i x s).stn i = { s.stn i with state := x } := by
  rw [setStState_frame, State.setPorts_stn, stn_modStn_self]

theorem setStState_stn_ne (h : j ≠ i) : (setStState i x s).stn j = s.stn j := by
  rw [setStState_frame, State.setPorts_stn, stn_modStn_ne _ _ (Ne.symm h)]

/-- The monitor of the station's port follows (R30). -/
theorem setStState_port (hp : s.portOf i = some p) :
    (setStState i x s).port p = { s.port p with
      monitor := monitorNext (s.port p) ((s.modStn i (fun r => { r with state := x })).comparing p) } := by
  have hp' : (s.modStn i (fun r => { r with state := x })).portOf i = some p := hp
  unfold setStState
  simp only [hp', syncMonitor, port_modPort_self]
  rfl

theorem setStState_port_other (hp : s.portOf i ≠ some p) : (setStState i x s).port p = s.port p := by
  unfold setStState
  simp only
  split
  · next q hq =>
    have hne : q ≠ p := by
      rintro rfl
      exact hp hq
    simp [syncMonitor, hne]
  · rfl

theorem setStState_ports_unmapped (hp : s.portOf i = none) : (setStState i x s).ports = s.ports := by
  have hp' : (s.modStn i (fun r => { r with state := x })).portOf i = none := hp
  unfold setStState
  simp only [hp']
  rfl

/-- A port whose station is neither ONLINE nor QUARANTINED is not compared (R30). -/
theorem comparing_of_down (hp : s.portMap[p] = some i) (hup : s.up i = false) : s.comparing p = false := by
  simp [State.comparing, hp, hup]

/-! ### RELEASE STATION -/

theorem dropSweep_eq (i : Station) (s : State) : dropSweep i s
    = s.setSched { s.sched with sweeps := s.sched.sweeps.filter (fun q => decide (q.station ≠ i)) } := rfl

/-- With no release held on its port a station drops none. -/
theorem dropRelease_none (h : ∀ p, s.portOf i = some p → (s.port p).holder = none) : dropRelease i s = s := by
  unfold dropRelease
  split
  · rfl
  · next p hp => exact if_neg (by simp [h p hp])

/-- A port whose output is asserted has no holder (R26, R28). -/
theorem holder_of_sound {r : InhibitPort} (h : r.sound) (hd : r.driven = .asserted) : r.holder = none := by
  unfold InhibitPort.sound at h
  rw [hd] at h
  exact h.1

/-- A station that is not ONLINE has its output asserted (R32). -/
theorem asserted_of_releases (hr : ReleasesOk s) (hp : s.portOf i = some p) (hoff : (s.stn i).state ≠ .online) :
    (s.port p).driven = .asserted := by
  cases hd : (s.port p).driven with
  | asserted => rfl
  | released =>
    obtain ⟨j, hj, hon⟩ := (hr p).2 hd
    rw [portOf_some hp] at hj
    cases hj
    exact absurd hon hoff

/-- A station goes to DOWN with no release held on its port (R22, R10). -/
theorem goDown_eq (h : ∀ p, s.portOf i = some p → (s.port p).holder = none) :
    goDown i s = startBringUp i (dropSweep i (setStState i .down (s.modStn i (fun r => r.lost)))) := by
  rw [goDown, dropRelease_none]
  intro p hp
  have hp' : (s.modStn i (fun r => r.lost)).portOf i = some p := by simpa using hp
  rw [setStState_port hp']
  exact h p hp'

/-- The state with the FAULT of a station's port cleared (R22). -/
def State.faultCleared (s : State) (i : Station) : State :=
  match s.portOf i with
  | some p => s.modPort p (fun r => { r with monitor := .idle })
  | none => s

theorem faultCleared_frame (s : State) (i : Station) : s.faultCleared i = s.setPorts (s.faultCleared i).ports := by
  unfold State.faultCleared
  split <;> rfl

@[simp] theorem faultCleared_stn (j : Station) : (s.faultCleared i).stn j = s.stn j := by
  rw [faultCleared_frame, State.setPorts_stn]

@[simp] theorem faultCleared_link (j : Station) : (s.faultCleared i).link j = s.link j := by
  rw [faultCleared_frame, State.setPorts_link]

@[simp] theorem faultCleared_portOf (j : Station) : (s.faultCleared i).portOf j = s.portOf j := by
  rw [faultCleared_frame, State.setPorts_portOf]

@[simp] theorem faultCleared_portMap : (s.faultCleared i).portMap = s.portMap := by
  rw [faultCleared_frame, State.setPorts_portMap]

@[simp] theorem faultCleared_events : (s.faultCleared i).events = s.events := by
  rw [faultCleared_frame, State.setPorts_events]

@[simp] theorem faultCleared_audit : (s.faultCleared i).audit = s.audit := by
  rw [faultCleared_frame, State.setPorts_audit]

theorem faultCleared_port (hp : s.portOf i = some p) :
    (s.faultCleared i).port p = { s.port p with monitor := .idle } := by
  simp [State.faultCleared, hp]

/-- A station with nobody on its link goes to DOWN, the FAULT of its port cleared (R22). -/
theorem releaseStation_idle (hw : (s.link i).waiters = []) (hh : (s.link i).holder = none) :
    releaseStation i s = goDown i (s.faultCleared i) := by
  have hu : ((s.faultCleared i).link i).users = [] := by
    rw [faultCleared_frame, State.setPorts_link]
    simp [LinkRec.users, hh, hw]
  have hrel : releaseStation i s = ((s.faultCleared i).link i).users.foldl (fun s u => endByLink i u s)
      (goDown i (((s.faultCleared i).link i).users.foldl (fun s u => dropUser i u s) (s.faultCleared i))) := rfl
  rw [hrel, hu]
  rfl

/-- Settles O24. -/
theorem quarantineReleased : Obligations.QuarantineReleased := by
  intro tag i n s h hn
  subst hn
  refine ⟨fun hk hq hw hh hmap hrel => ?_, fun hk => ?_, fun hk hq => ?_⟩
  · have hoff : (s.stn i).state ≠ .online := by rw [hq]; exact nofun
    have hdown : ∀ p, (s.faultCleared i).portOf i = some p → ((s.faultCleared i).port p).holder = none := by
      intro p hp
      rw [faultCleared_portOf] at hp
      rw [faultCleared_port hp]
      show (s.port p).holder = none
      exact holder_of_sound (hrel p).1 (asserted_of_releases hrel hp hoff)
    refine ⟨releaseStation i s, answers_of_respond rfl h ?_, ?_⟩
    · simp only [respond, takeReleaseStation, stationOf_number]
      exact (checked_pass (by simp [hk])).trans (checked_pass (by simp [hq]))
    · rw [releaseStation_idle hw hh, goDown_eq hdown]
      refine ⟨?_, ?_, ?_, fun p hp => ?_, ?_, ?_, fun j hj => ⟨?_, ?_⟩⟩
      · simp [startBringUp, dropSweep_eq, StationRec.lost]
      · simp [startBringUp, dropSweep_eq]
      · simp [startBringUp, dropSweep_eq, Config.identWait]
      · have hp' := portOf_of_map hmap hp
        have hy : ((s.faultCleared i).modStn i (fun r => r.lost)).portOf i = some p := by simpa using hp'
        have hport : (startBringUp i (dropSweep i (setStState i .down
            ((s.faultCleared i).modStn i (fun r => r.lost))))).port p
            = (setStState i .down ((s.faultCleared i).modStn i (fun r => r.lost))).port p := rfl
        rw [hport, setStState_port hy, State.modStn_port, faultCleared_port hp', comparing_of_down (i := i) (by simpa using hp)
          (by simp [State.up])]
        exact ⟨rfl, asserted_of_releases hrel hp' hoff⟩
      · simp [startBringUp, dropSweep_eq]
      · simp [startBringUp, dropSweep_eq]
      · simp [startBringUp, dropSweep_eq, setStState_stn_ne hj, stn_modStn_ne _ _ (Ne.symm hj)]
      · simp [startBringUp, dropSweep_eq, link_modLink_ne _ _ (Ne.symm hj)]
  · refine answers_of_respond rfl h ?_
    simp only [respond, takeReleaseStation, stationOf_number]
    exact checked_fail (by simp [hk])
  · refine answers_of_respond rfl h ?_
    simp only [respond, takeReleaseStation, stationOf_number]
    exact (checked_pass (by simp [hk])).trans (checked_fail (by simp [hq]))

/-! ### The access channels -/

/-- The lowest free channel (R161, R162). -/
theorem freeChannel_eq_some (hc : (s.chan c).state = .free) (h0 : c = 0 ∨ (s.chan 0).state ≠ .free) :
    freeChannel s = some c := by
  have hall : allChannels = [0, 1] := rfl
  rw [freeChannel, hall]
  by_cases hfree : (s.chan 0).state = .free
  · obtain rfl := h0.resolve_right (fun h => h hfree)
    exact List.find?_cons_of_pos (by simpa using hc)
  · have hc1 : c = 1 := by
      exact Fin.eq_one_of_ne_zero c (fun h => hfree (h ▸ hc))
    subst hc1
    rw [List.find?_cons_of_neg (by simpa using hfree)]
    exact List.find?_cons_of_pos (by simpa using hc)

/-- The first READ of a channel's work (R163). -/
def AccessWork.firstRead (w : AccessWork) (words : Nat) : StationRequest := .read w.block w.offset (min words w.count)

/-- On an idle link a channel's work takes it at once and sends its first READ (R161 to R163). -/
theorem startWork_idle {w : AccessWork} (hg : w.got = []) (hi : s.idleLink w.station) :
    startWork c w s = (s.setChan c { state := .running, work := some w }).asks w.station
      (w.firstRead (s.stn w.station).wordsPerFrame) (.access c) := by
  have hchan : ((s.setChan c { state := .waiting, work := some w }).heldBy w.station (.access c)).chan c
      = { state := .waiting, work := some w } := chan_setChan_self _ _ _
  have hset : ((s.setChan c { state := .waiting, work := some w }).heldBy w.station (.access c)).setChan c
      { state := .running, work := some w }
      = (s.setChan c { state := .running, work := some w }).heldBy w.station (.access c) := by
    simp [State.setChan, State.heldBy, State.modLink, State.link]
  have hstart : startUser w.station (.access c)
      ((s.setChan c { state := .waiting, work := some w }).heldBy w.station (.access c))
      = (s.setChan c { state := .running, work := some w }).asks w.station
        (w.firstRead (s.stn w.station).wordsPerFrame) (.access c) := by
    simp only [startUser, startAccess, hchan, hset, sendAccessRead, hg]
    rfl
  rw [startWork, place_idle (s := s.setChan c { state := .waiting, work := some w }) hi, hstart]
  rw [hstart]
  exact sendRequest_occupied _ _ _ _

theorem findImage_modImage_self {ims : List Image} {id : Nat} {im : Image} {f : Image → Image}
    (hf : ∀ x, (f x).id = x.id) (h : findImage ims id = some im) : findImage (modImage ims id f) id = some (f im) := by
  induction ims with
  | nil => cases h
  | cons x ims ih =>
    rw [findImage, List.find?_cons] at h
    rw [modImage, List.map_cons, findImage, List.find?_cons]
    by_cases hx : x.id = id
    · simp only [hx, decide_true] at h
      cases h
      simp [hx, hf]
    · simp only [hx, decide_false] at h
      simpa [hx, findImage, modImage] using ih h

theorem channelOf_number (c : ChanId) : channelOf (c.val + 1) = some c := by
  unfold channelOf
  rw [dif_pos (by omega)]
  rfl

/-- The channels and the images set aside. -/
theorem SameBut.withChannels {y : State} (hx : { t with channels := s.channels, images := s.images } = s)
    (h : SameBut i t y) : SameBut i s { y with channels := s.channels, images := s.images } := by
  have hst : t.stations = s.stations := (congrArg State.stations hx :)
  have hli : t.links = s.links := (congrArg State.links hx :)
  have hev : t.events = s.events := (congrArg State.events hx :)
  obtain ⟨heq, hj⟩ := h
  simp only [SameBut, State.stn, State.link, hst, hli, hev] at heq hj ⊢
  exact ⟨(congrArg (fun z : State => { z with channels := s.channels, images := s.images }) heq).trans hx, hj⟩

/-- Settles O25. -/
theorem accessChannels : Obligations.AccessChannels := by
  refine ⟨fun tag r s i c h hi hb ho h1 h64 hsum hon hh hw hf hfree h0 => ?_,
    fun tag r s i c im h hi hb him hfind hwords hcap hon hh hw hf hfree h0 => ?_, fun tag c n w s h hn hc => ?_,
    fun tag c n s h hn hc => ?_⟩
  · intro w
    have hst : directReadStation r = some i := (if_pos ⟨hb, ho, h1, h64, hsum⟩).trans hi
    have hx := startWork_idle (c := c) (w := w) rfl (show s.idleLink w.station from ⟨hh, hw, hf⟩)
    have hr : respond (.directRead r) s = (.ok (.channel c), startWork c w s) := by
      simp only [respond, takeDirectRead, hst, freeChannel_eq_some hfree h0]
      exact checked_pass (by simp [up_of_online hon])
    rw [hx] at hr
    refine ⟨_, answers_of_respond rfl h hr, chan_setChan_self _ _ _, ?_, ?_, ?_, rfl⟩
    · exact congrArg LinkRec.holder asks_link_self
    · exact congrArg LinkRec.inFlight asks_link_self
    · have hsame := sameBut_asks w.station (w.firstRead (s.stn w.station).wordsPerFrame) (.access c)
        (s.setChan c { state := .running, work := some w })
      exact SameBut.withChannels (t := s.setChan c { state := .running, work := some w }) rfl hsame
  · let w : AccessWork :=
      { kind := .capture, station := i, block := r.block, offset := 0, count := im.length, image := some r.image,
        got := [], result := none }
    let x : State := { s with images := modImage s.images r.image (fun im => { im with capture := some c }) }
    have hst : captureStation r = some i := (if_pos ⟨hb, him⟩).trans hi
    have hx := startWork_idle (c := c) (w := w) (s := x) rfl (show x.idleLink w.station from ⟨hh, hw, hf⟩)
    have hr : respond (.capture r) s = (.ok (.channel c), startWork c w x) := by
      simp only [respond, takeCapture, hst, hfind, freeChannel_eq_some hfree h0]
      rw [checked_config h]
      exact (checked_pass (by simp [up_of_online hon])).trans (checked_pass (by simp [hwords, hcap]))
    rw [hx] at hr
    refine ⟨_, answers_of_respond rfl h.taken hr, ?_, ?_, ?_, ?_⟩
    · exact congrArg Channel.state (chan_setChan_self x c _)
    · exact findImage_modImage_self (fun _ => rfl) hfind
    · exact congrArg LinkRec.inFlight asks_link_self
    · have hsame := sameBut_asks w.station (w.firstRead (x.stn w.station).wordsPerFrame) (.access c)
        (x.setChan c { state := .running, work := some w })
      exact SameBut.withChannels (t := x.setChan c { state := .running, work := some w }) rfl hsame
  · subst hn
    refine answers_of_respond rfl h ?_
    simp only [respond, takeAccessResult, channelOf_number, hc]
    rfl
  · subst hn
    refine answers_of_respond rfl h ?_
    simp only [respond, takeAccessResult, channelOf_number]
    split
    · next w hd hw => exact absurd hd hc
    · rfl

end Sys2Proof.Machine
end

section
/-! SUPPORT. DISARM and ARM. -/

namespace Sys2Proof.Machine

open Sys2Proof

variable {s t : State} {i j : Station}

/-! ### DISARM -/

theorem permit_of_configure (h : s.stage = .configure) : s.permit = false := by
  simp [State.permit, h]

theorem atWork_iff : s.atWork = true ↔ (∃ i : Station, (s.stn i).slot ≠ none) ∨ s.changeover.state ≠ .idle := by
  rw [State.atWork, Bool.or_eq_true, decide_eq_true_eq, List.any_eq_true]
  refine or_congr ⟨?_, ?_⟩ Iff.rfl
  · rintro ⟨r, hr, hs⟩
    obtain ⟨k, hk, rfl⟩ := Vector.mem_iff_getElem.mp (Vector.mem_toList_iff.mp hr)
    exact ⟨⟨k, hk⟩, Option.isSome_iff_ne_none.mp hs⟩
  · rintro ⟨i, hi⟩
    exact ⟨s.stn i, Vector.mem_toList_iff.mpr (Vector.getElem_mem i.isLt), Option.isSome_iff_ne_none.mpr hi⟩

/-- A link that stays occupied when an operation leaves it does not pass. -/
theorem leave_occupied {u : LinkUser}
    (h : (s.link i).inFlight ≠ none ∨ (s.link i).holder ≠ none ∧ (s.link i).holder ≠ some u) :
    leave i u s = dropUser i u s := by
  refine grant_occupied ?_
  rcases h with hf | ⟨hh, hne⟩
  · refine .inr ?_
    simpa [dropUser] using hf
  · refine .inl ?_
    simp [dropUser, hne, hh]

/-- What DISARM makes of the guard once the check in progress is abandoned (R172). -/
def State.disarmed (s : State) : State :=
  { s with
    sched := .stopped
    audit := s.audit.map AuditEntry.disarmed
    stations := s.stations.map (fun r => { r with sumUnreliable := false })
    eng := s.eng.map EngPort.disarmed
    stage := .configure }

theorem disarmed_stn (s : State) (i : Station) : s.disarmed.stn i = { s.stn i with sumUnreliable := false } := by
  simp [State.disarmed, State.stn]

theorem disarmed_engp (s : State) (e : EngId) : s.disarmed.engp e = (s.engp e).disarmed := by
  simp [State.disarmed, State.engp]

/-- Settles O17. -/
theorem disarmConfigures : Obligations.DisarmConfigures := by
  intro tag s h
  have hresp : ∀ {a : Taken}, checked [(s.locked, .locked), (decide (s.stage ≠ .guarding), .stage),
      (!s.keyMaint, .interlock), (s.atWork, .busy)] s (.ok .none, disarmEffects s) = a → respond .disarm s = a := id
  refine ⟨fun hl => answers_of_respond rfl h (checked_fail hl),
    fun hl hs => answers_of_respond rfl h ((checked_pass hl).trans (checked_fail (by simp [hs]))),
    fun hl hs hk => answers_of_respond rfl h
      ((checked_pass hl).trans ((checked_pass (by simp [hs])).trans (checked_fail (by simp [hk])))),
    fun hl hs hk hw => answers_of_respond rfl h ((checked_pass hl).trans ((checked_pass (by simp [hs])).trans
      ((checked_pass (by simp [hk])).trans (checked_fail (atWork_iff.mpr hw))))), fun hl hs hk hslot hidle hc => ?_⟩
  have hwork : s.atWork = false := Bool.eq_false_iff.mpr fun hw => (atWork_iff.mp hw).elim
    (fun ⟨i, hi⟩ => hi (hslot i)) (fun hne => hne hidle)
  have hr : respond .disarm s = (.ok .none, disarmEffects s) := by
    refine hresp ((checked_pass hl).trans ?_)
    rw [checked_pass (by simp [hs]), checked_pass (by simp [hk]), checked_pass hwork, checked_nil]
  have heff : disarmEffects s = (abandonCheck s).disarmed := rfl
  rw [heff] at hr
  have hkeeps : ∀ x : State, { x with links := s.links } = s →
      x.disarmed.stage = .configure ∧ x.disarmed.permit = false
        ∧ x.disarmed.sched = { check := none, paceTimer := none, sweeps := [], cursor := none }
        ∧ x.disarmed.audit = s.audit.map AuditEntry.disarmed
        ∧ (∀ i : Station, x.disarmed.stn i = { s.stn i with sumUnreliable := false })
        ∧ (∀ e : EngId, x.disarmed.engp e = (s.engp e).disarmed)
        ∧ { x.disarmed with stage := s.stage, sched := s.sched, audit := s.audit, stations := s.stations, eng := s.eng,
                            links := s.links } = s := by
    intro x hx
    refine ⟨rfl, permit_of_configure rfl, rfl, ?_, fun i => ?_, fun e => ?_, ?_⟩
    · exact congrArg (List.map AuditEntry.disarmed) (congrArg State.audit hx :)
    · rw [disarmed_stn]
      have hst : x.stations = s.stations := (congrArg State.stations hx :)
      simp only [State.stn, hst]
    · rw [disarmed_engp]
      have hen : x.eng = s.eng := (congrArg State.eng hx :)
      simp only [State.engp, hen]
    · have hset : ∀ z y : State, z = y → { z with stage := s.stage, sched := s.sched, audit := s.audit, eng := s.eng }
          = { y with stage := s.stage, sched := s.sched, audit := s.audit, eng := s.eng } := fun _ _ h => h ▸ rfl
      have hst : x.stations = s.stations := (congrArg State.stations hx :)
      have hx' := hset _ _ hx
      simp only [hst] at hx'
      exact hx'
  cases hcheck : s.sched.check with
  | none =>
    have hab : abandonCheck s = s := by rw [abandonCheck, hcheck]
    rw [hab] at hr
    obtain ⟨h1, h2, h3, h4, h5, h6, h7⟩ := hkeeps s rfl
    exact ⟨_, answers_of_respond rfl h hr, h1, h2, h3, h4, h5, h6, fun _ => rfl, nofun, h7⟩
  | some c =>
    have hab : abandonCheck s = dropUser c.station .audit s := by
      rw [abandonCheck, hcheck]
      exact leave_occupied (hc c hcheck)
    rw [hab] at hr
    obtain ⟨h1, h2, h3, h4, h5, h6, h7⟩ := hkeeps (dropUser c.station .audit s) rfl
    refine ⟨_, answers_of_respond rfl h hr, h1, h2, h3, h4, h5, h6, nofun, fun d hd => ?_, h7⟩
    cases hd
    have hlink : ∀ j, (dropUser c.station .audit s).disarmed.link j = (dropUser c.station .audit s).link j := fun _ => rfl
    refine ⟨fun j hj => ?_, ?_⟩
    · rw [hlink, dropUser, link_modLink_ne _ _ (Ne.symm hj)]
    · rw [hlink, dropUser, link_modLink_self]

/-! ### The checks of ARM -/

section
variable {e : AuditEntry}

theorem mapped_iff : s.mapped i = true ↔ ∃ p : Port, s.portMap[p] = some i := by
  rw [State.mapped, Option.isSome_iff_exists]
  refine ⟨fun ⟨p, hp⟩ => ⟨p, portOf_some hp⟩, fun ⟨p, hp⟩ => ?_⟩
  cases h : s.portOf i with
  | some q => exact ⟨q, rfl⟩
  | none =>
    have hn := List.find?_eq_none.mp h p (List.mem_finRange p)
    simp [hp] at hn

/-- The fourth check of R170 holds for an entry with an image. -/
theorem imageFits_iff {id : Nat} : (imageComplete s.images id = true ∧ imageLength s.images id = some e.length) ↔
    ∃ im, findImage s.images id = some im ∧ im.words.length = im.length ∧ im.length = e.length := by
  unfold imageComplete imageLength
  cases findImage s.images id <;> simp [Image.complete]

/-- The fifth check of R170. -/
theorem formatLengthsFit_iff : formatLengthsFit s e = true ↔
    ∀ x ∈ s.recipes, ∀ it ∈ x.2.blocks, it.station = e.station → it.block = e.block →
      ∃ im, findImage s.images it.image = some im ∧ im.length = e.length := by
  have himp : ∀ it : RecipeBlock, (!(decide (it.station = e.station) && decide (it.block = e.block))
        || decide (imageLength s.images it.image = some e.length)) = true
      ↔ (it.station = e.station → it.block = e.block →
        ∃ im, findImage s.images it.image = some im ∧ im.length = e.length) := by
    intro it
    simp only [imageLength, Bool.or_eq_true, Bool.not_eq_true', Bool.and_eq_false_iff, decide_eq_false_iff_not,
      decide_eq_true_eq, Option.map_eq_some_iff]
    tauto
  rw [formatLengthsFit, List.all_eq_true]
  refine forall₂_congr fun x _ => ?_
  rw [List.all_eq_true]
  exact forall₂_congr fun it _ => himp it

/-- The third check of R170: an image for every class but FORMAT, and none for FORMAT. -/
theorem classImage_iff {c : Cls} : decide (c = .format) = e.image.isSome ↔ ¬ (c = .format ↔ e.image = none) := by
  cases e.image <;> by_cases hc : c = .format <;> simp [hc]

theorem entryFault_unmapped (h1 : ¬ ∃ p : Port, s.portMap[p] = some e.station) : entryFault s e = some 1 :=
  if_pos (fun h => h1 (mapped_iff.mp h))

theorem entryFault_free (h1 : ∃ p : Port, s.portMap[p] = some e.station) (h2 : ¬ s.classOf e.station e.block ≠ .free) :
    entryFault s e = some 2 := by
  simp only [entryFault]
  rw [if_neg (not_not_intro (mapped_iff.mpr h1)), if_pos (not_not.mp h2)]

theorem entryFault_image (h1 : ∃ p : Port, s.portMap[p] = some e.station) (h2 : s.classOf e.station e.block ≠ .free)
    (h3 : ¬ (s.classOf e.station e.block = .format ↔ e.image = none)) : entryFault s e = some 3 := by
  simp only [entryFault]
  rw [if_neg (not_not_intro (mapped_iff.mpr h1)), if_neg h2, if_pos (classImage_iff.mpr h3)]

theorem entryFault_some {id : Nat} (h1 : ∃ p : Port, s.portMap[p] = some e.station)
    (h2 : s.classOf e.station e.block ≠ .free) (h3 : s.classOf e.station e.block = .format ↔ e.image = none)
    (hid : e.image = some id) : entryFault s e
      = if imageComplete s.images id = true ∧ imageLength s.images id = some e.length then none else some 4 := by
  simp only [entryFault]
  rw [if_neg (not_not_intro (mapped_iff.mpr h1)), if_neg h2, if_neg (fun h => classImage_iff.mp h h3)]
  simp only [hid]

theorem entryFault_none (h1 : ∃ p : Port, s.portMap[p] = some e.station)
    (h2 : s.classOf e.station e.block ≠ .free) (h3 : s.classOf e.station e.block = .format ↔ e.image = none)
    (hid : e.image = none) : entryFault s e = if formatLengthsFit s e = true then none else some 5 := by
  simp only [entryFault]
  rw [if_neg (not_not_intro (mapped_iff.mpr h1)), if_neg h2, if_neg (fun h => classImage_iff.mp h h3)]
  simp only [hid]

end

/-! ### The first check that fails -/

theorem firstEntryFault_none {es : List AuditEntry} (b : Nat) (h : ∀ e ∈ es, entryFault s e = none) :
    firstEntryFault s b es = none := by
  induction es generalizing b with
  | nil => rfl
  | cons e es ih =>
    rw [firstEntryFault, h e (by simp)]
    exact ih (b + 1) (fun x hx => h x (by simp [hx]))

theorem firstEntryFault_some {es : List AuditEntry} {e : AuditEntry} {k n : Nat} (b : Nat) (he : es[k]? = some e)
    (h : ∀ x ∈ es.take k, entryFault s x = none) (hn : entryFault s e = some n) :
    firstEntryFault s b es = some { kind := .auditEntry, number := b + k, position := 0, check := n } := by
  induction es generalizing b k with
  | nil => cases he
  | cons x es ih =>
    cases k with
    | zero =>
      cases he
      rw [firstEntryFault, hn]
      rfl
    | succ k =>
      rw [firstEntryFault, h x (by simp), Nat.add_comm k 1, ← Nat.add_assoc]
      exact ih (b + 1) he (fun y hy => h y (by simp [hy]))

theorem firstParamFault_none {ps : List (Nat × Param)} (h : ∀ x ∈ ps, s.classOf x.2.station x.2.block = .tunable) :
    firstParamFault s ps = none := by
  induction ps with
  | nil => rfl
  | cons x ps ih => exact (if_pos (h x (by simp))).trans (ih (fun y hy => h y (by simp [hy])))

theorem firstParamFault_some {before after : List (Nat × Param)} {k : Nat} {p : Param}
    (h : ∀ x ∈ before, s.classOf x.2.station x.2.block = .tunable) (hp : ¬ s.classOf p.station p.block = .tunable) :
    firstParamFault s (before ++ (k, p) :: after)
      = some { kind := .parameter, number := k, position := 0, check := 1 } := by
  induction before with
  | nil => exact if_neg hp
  | cons x ps ih => exact (if_pos (h x (by simp))).trans (ih (fun y hy => h y (by simp [hy])))

theorem imageComplete_iff {id : Nat} :
    imageComplete s.images id = true ↔ ∃ im, findImage s.images id = some im ∧ im.words.length = im.length := by
  unfold imageComplete
  cases findImage s.images id <;> simp [Image.complete]

theorem recipeBlockFault_none {it : RecipeBlock} (h1 : s.classOf it.station it.block = .format)
    (h2 : ∃ im, findImage s.images it.image = some im ∧ im.words.length = im.length) : recipeBlockFault s it = none := by
  rw [recipeBlockFault, if_neg (not_not_intro h1), if_pos (imageComplete_iff.mpr h2)]

theorem firstBlockFault_none {bs : List RecipeBlock} (f b : Nat) (h : ∀ it ∈ bs, recipeBlockFault s it = none) :
    firstBlockFault s f b bs = none := by
  induction bs generalizing b with
  | nil => rfl
  | cons e es ih =>
    rw [firstBlockFault, h e (by simp)]
    exact ih (b + 1) (fun x hx => h x (by simp [hx]))

theorem firstBlockFault_some {bs : List RecipeBlock} {it : RecipeBlock} {k n : Nat} (f b : Nat) (he : bs[k]? = some it)
    (h : ∀ x ∈ bs.take k, recipeBlockFault s x = none) (hn : recipeBlockFault s it = some n) :
    firstBlockFault s f b bs = some { kind := .recipeBlock, number := f, position := b + k, check := n } := by
  induction bs generalizing b k with
  | nil => cases he
  | cons x es ih =>
    cases k with
    | zero =>
      cases he
      rw [firstBlockFault, hn]
      rfl
    | succ k =>
      rw [firstBlockFault, h x (by simp), Nat.add_comm k 1, ← Nat.add_assoc]
      exact ih (b + 1) he (fun y hy => h y (by simp [hy]))

theorem firstRecipeFault_none {rs : List (Nat × Recipe)}
    (h : ∀ x ∈ rs, ∀ it ∈ x.2.blocks, recipeBlockFault s it = none) : firstRecipeFault s rs = none := by
  induction rs with
  | nil => rfl
  | cons x rs ih =>
    rw [firstRecipeFault, firstBlockFault_none x.1 0 (h x (by simp))]
    exact ih (fun y hy => h y (by simp [hy]))

theorem firstRecipeFault_some {before after : List (Nat × Recipe)} {f k n : Nat} {r : Recipe} {it : RecipeBlock}
    (h : ∀ x ∈ before, ∀ it ∈ x.2.blocks, recipeBlockFault s it = none) (he : r.blocks[k]? = some it)
    (hr : ∀ x ∈ r.blocks.take k, recipeBlockFault s x = none) (hn : recipeBlockFault s it = some n) :
    firstRecipeFault s (before ++ (f, r) :: after)
      = some { kind := .recipeBlock, number := f, position := k, check := n } := by
  induction before with
  | nil => rw [List.nil_append, firstRecipeFault, firstBlockFault_some f 0 he hr hn, Nat.zero_add]
  | cons x rs ih =>
    rw [List.cons_append, firstRecipeFault, firstBlockFault_none x.1 0 (h x (by simp))]
    exact ih (fun y hy => h y (by simp [hy]))

/-! ### ARM -/

/-- An entry as ARM leaves it, class by class (R119, R171). -/
theorem armed_eq (e : AuditEntry) (s : State) :
    let c := s.classOf e.station e.block
    let image := resolvedImage s.recipes s.activeFormat e.station e.block
    e.armed s = { e with
      cls := some c
      resolved := if c = .format then image else none
      expected := (e.armed s).expected
      state := if c = .format ∧ image = none then .notApplicable else .unchecked
      lastCheck := none
      lastOutcome := none
      drift := none } := by
  intro c image
  cases hc : s.classOf e.station e.block with
  | free => simp [AuditEntry.armed, c, hc]
  | fixed => simp [AuditEntry.armed, c, hc]
  | tunable => simp [AuditEntry.armed, c, hc]
  | format =>
    cases hi : resolvedImage s.recipes s.activeFormat e.station e.block <;>
      simp [AuditEntry.armed, AuditEntry.resolve, c, image, hc, hi]

theorem armed_fixed {e : AuditEntry} (h : s.classOf e.station e.block = .fixed) :
    (e.armed s).expected = e.image.bind (imagePrint s.images) := by
  simp [AuditEntry.armed, h]

theorem armed_format {e : AuditEntry} (h : s.classOf e.station e.block = .format) : (e.armed s).expected
    = (resolvedImage s.recipes s.activeFormat e.station e.block).bind (imagePrint s.images) := by
  cases hi : resolvedImage s.recipes s.activeFormat e.station e.block <;>
    simp [AuditEntry.armed, AuditEntry.resolve, h, hi]

theorem armed_tunable {e : AuditEntry} {id : Nat} (h : s.classOf e.station e.block = .tunable) (hi : e.image = some id) :
    (e.armed s).expected = some (fingerprint (overlay s.params e.station e.block 0 (imageWords s.images id))) := by
  simp [AuditEntry.armed, tunablePrint, h, hi]

/-- What ARM makes of the guard (R171). -/
theorem armEffects_eq (s : State) : ∃ v : Vector StationRec 8, armEffects s = { s with
      stage := .guarding
      audit := s.audit.map (fun e => e.armed s)
      stations := v
      sched := { check := none, paceTimer := some s.timing.auditPace, sweeps := [], cursor := none } }
    ∧ ∀ i : Station, v[i] = if s.mapped i = true ∧ (s.stn i).format ≠ .mixed then
        { s.stn i with format := .fmt s.activeFormat } else s.stn i := by
  let x : State := { s with stage := .guarding, audit := s.audit.map (fun e => e.armed s) }
  have hf := setFormats_frame (allStations.filter (fun i => x.mapped i && decide ((x.stn i).format ≠ .mixed)))
    (.fmt x.activeFormat) x
  refine ⟨(armFormats x).stations, ?_, fun i => ?_⟩
  · have hx : armEffects s = { armFormats x with sched :=
        { check := none, paceTimer := some (armFormats x).timing.auditPace, sweeps := [], cursor := none } } := rfl
    have hback : armFormats x = { x with stations := (armFormats x).stations } :=
      (congrArg (fun y : State => { y with stations := (armFormats x).stations }) hf :)
    rw [hx]
    rw [hback]
  · have hmem : i ∈ allStations.filter (fun i => x.mapped i && decide ((x.stn i).format ≠ .mixed)) ↔
        s.mapped i = true ∧ (s.stn i).format ≠ .mixed := by
      rw [List.mem_filter, Bool.and_eq_true, decide_eq_true_eq]
      exact ⟨fun hm => hm.2, fun hm => ⟨List.mem_finRange i, hm⟩⟩
    exact (setFormats_stn _ _ x i).trans (if_congr hmem rfl rfl)

/-- Settles O16. -/
theorem armGuards : Obligations.ArmGuards := by
  intro tag s h passes entryOk paramOk itemPasses itemOk activeOk refused
  have hresp : ∀ {a : Taken}, (match armFault s with
      | some x => (.refusedAt .range x, s)
      | none => (.ok .none, armEffects s)) = a → respond .arm s = a := by
    intro a ha
    have hc := checked_config h [] (match armFault s with
      | some x => (.refusedAt .range x, s)
      | none => (.ok .none, armEffects s))
    rw [List.append_nil, checked_nil] at hc
    exact hc.trans ha
  have hfault : ∀ x, armFault s = some x → Answers (.arm tag) tag s (.refusedAt .range x) s := fun x hx =>
    answers_of_respond rfl h.taken (hresp (by rw [hx]))
  have hentry : ∀ e, entryOk e → entryFault s e = none := by
    intro e he
    have h4 : passes 4 e := he 4 (by omega) (by omega)
    have h5 : passes 5 e := he 5 (by omega) (by omega)
    cases hid : e.image with
    | some id =>
      rw [entryFault_some (he 1 (by omega) (by omega)) (he 2 (by omega) (by omega)) (he 3 (by omega) (by omega)) hid]
      exact if_pos (imageFits_iff.mpr (h4 id hid))
    | none =>
      rw [entryFault_none (he 1 (by omega) (by omega)) (he 2 (by omega) (by omega)) (he 3 (by omega) (by omega)) hid]
      exact if_pos (formatLengthsFit_iff.mpr (h5 hid))
  have hitem : ∀ it, itemOk it → recipeBlockFault s it = none := fun it hit => recipeBlockFault_none hit.1 hit.2
  refine ⟨fun he hp hr ha => ?_, fun k n e hk hbefore h1 h5 hpass hn => ?_,
    fun before after k p he hps hb hp => hfault _ ?_, fun before after f n k r it he hp hrs hb hk hbefore hn hnot => hfault _ ?_,
    fun he hp hr ha => hfault _ ?_⟩
  · have hnone : armFault s = none := by
      rw [armFault, firstEntryFault_none 0 (fun e hm => hentry e (he e hm)), firstParamFault_none hp,
        firstRecipeFault_none (fun x hx it hi => hitem it (hr x hx it hi))]
      exact if_pos (ha.imp_right Option.isSome_iff_ne_none.mpr)
    obtain ⟨v, heff, hv⟩ := armEffects_eq s
    have hok : respond .arm s = (.ok .none, armEffects s) := hresp (by rw [hnone])
    rw [heff] at hok
    refine ⟨_, answers_of_respond rfl h.taken hok, rfl, rfl, List.length_map _, fun k e hk => ?_, hv, rfl⟩
    intro c image
    refine ⟨(e.armed s).expected, ?_, fun hc => armed_fixed hc, fun hc => armed_format hc, fun id hc hid => ?_⟩
    · rw [← armed_eq]
      simp [hk]
    · refine ⟨_, armed_tunable hc hid, length_overlay _ _ _ _ _, fun j w hw => ?_⟩
      refine (overlay_getElem? _ _ _ 0 hw).trans ?_
      simp only [Nat.zero_add] <;> rfl
  · have hn' : entryFault s e = some n := by
      obtain rfl | rfl | rfl | rfl | rfl : n = 1 ∨ n = 2 ∨ n = 3 ∨ n = 4 ∨ n = 5 := by omega
      · exact entryFault_unmapped hn
      · exact entryFault_free (hpass 1 (by omega) (by omega)) hn
      · exact entryFault_image (hpass 1 (by omega) (by omega)) (hpass 2 (by omega) (by omega)) hn
      · have hn4 : ¬ ∀ id, e.image = some id →
          ∃ im, findImage s.images id = some im ∧ im.words.length = im.length ∧ im.length = e.length := hn
        push Not at hn4
        obtain ⟨id, hid, hno⟩ := hn4
        rw [entryFault_some (hpass 1 (by omega) (by omega)) (hpass 2 (by omega) (by omega))
          (hpass 3 (by omega) (by omega)) hid]
        refine if_neg (fun hfit => ?_)
        obtain ⟨im, him, hl, hle⟩ := imageFits_iff.mp hfit
        exact hno im him hl hle
      · have hn5 : ¬ (e.image = none → ∀ x ∈ s.recipes, ∀ it ∈ x.2.blocks, it.station = e.station → it.block = e.block →
          ∃ im, findImage s.images it.image = some im ∧ im.length = e.length) := hn
        obtain ⟨hid, hno⟩ := Classical.not_imp.mp hn5
        rw [entryFault_none (hpass 1 (by omega) (by omega)) (hpass 2 (by omega) (by omega))
          (hpass 3 (by omega) (by omega)) hid]
        exact if_neg (fun hfit => hno (formatLengthsFit_iff.mp hfit))
    refine hfault _ ?_
    rw [armFault, firstEntryFault_some 0 hk (fun x hx => hentry x (hbefore x hx)) hn', Nat.zero_add]
    rfl
  · rw [armFault, firstEntryFault_none 0 (fun e hm => hentry e (he e hm)), hps, firstParamFault_some hb hp]
    rfl
  · have hn' : recipeBlockFault s it = some n := by
      rcases hn with rfl | ⟨rfl, h1⟩
      · exact if_pos hnot
      · have hformat : s.classOf it.station it.block = .format := h1
        rw [recipeBlockFault, if_neg (not_not_intro hformat), if_neg (fun hc => hnot (imageComplete_iff.mp hc))]
    rw [armFault, firstEntryFault_none 0 (fun e hm => hentry e (he e hm)), firstParamFault_none hp, hrs,
      firstRecipeFault_some (fun x hx it hi => hitem it (hb x hx it hi)) hk (fun x hx => hitem x (hbefore x hx)) hn']
    rfl
  · rw [armFault, firstEntryFault_none 0 (fun e hm => hentry e (he e hm)), firstParamFault_none hp,
      firstRecipeFault_none (fun x hx it hi => hitem it (hr x hx it hi))]
    exact if_neg (fun h => ha (h.imp_right Option.isSome_iff_ne_none.mp))

end Sys2Proof.Machine
end

section
/-! SUPPORT. SET PORT MAP. -/

namespace Sys2Proof.Machine

open Sys2Proof

variable {s : State} {i : Station} {p : Port}

theorem portMapOf_mapped {r : PortMapReq} (h : r.mode = 2) (p : Port) :
    (portMapOf r)[p] = stationOf r.values[p] := by
  simp [portMapOf, h, secondOf]

theorem portMapOf_sequential {r : PortMapReq} (h : r.mode = 1) (p : Port) : (portMapOf r)[p] =
    if r.values[p] = 1 then
      stationOf ((List.finRange 8).filter (fun q => decide (q ≤ p) && decide (r.values[q] = 1))).length
    else none := by
  simp [portMapOf, h, allPorts, secondOf]

/-- The guard with every station of the old map DISABLED, its record cleared, its monitors IDLE and a new map (R2, R4,
R31). -/
def State.remapped (s : State) (m : Vector (Option Station) 8) : State :=
  let old := allStations.filter s.mapped
  { clearMonitors (old.foldl (fun s i => clearRecord i s) (old.foldl (fun s i => disableStation i s) s)) with portMap := m }

theorem applyMap_eq (m : Vector (Option Station) 8) (s : State) : applyMap m s
    = (allStations.filter (s.remapped m).mapped).foldl (fun s i => enableStation i s) (s.remapped m) := rfl

theorem remapped_port (m : Vector (Option Station) 8) (h : ReleasesSafe s) (p : Port) :
    ((s.remapped m).port p).driven = .asserted ∧ ((s.remapped m).port p).monitor = .idle := by
  have hport : (s.remapped m).port p = { ((allStations.filter s.mapped).foldl (fun s i => clearRecord i s)
      ((allStations.filter s.mapped).foldl (fun s i => disableStation i s) s)).port p with monitor := .idle } := by
    simp [State.remapped, State.port, clearMonitors]
  rw [hport]
  exact ⟨(outputs_asserted h).2 p, rfl⟩

theorem remapped_stn (m : Vector (Option Station) 8) (hi : s.mapped i = true) :
    (s.remapped m).stn i = .cleared (s.remapped m).activeFormat := by
  obtain ⟨hact, hstn⟩ := foldl_clear_stn (s := (allStations.filter s.mapped).foldl (fun s i => disableStation i s) s)
    (allStations.filter s.mapped)
  have hmem : i ∈ allStations.filter s.mapped := List.mem_filter.mpr ⟨List.mem_finRange i, hi⟩
  have h := hstn i
  rw [if_pos hmem, ← hact] at h
  exact h

/-- Settles O6. -/
theorem portMapApplied : Obligations.PortMapApplied := by
  intro tag r s h hmap hrel hrange hconf
  have hr : respond (.setPortMap r) s = (.ok .none, applyMap (portMapOf r) s) :=
    (checked_config h _ _).trans ((checked_pass (by simp [hrange])).trans (checked_pass hconf))
  have hport := remapped_port (portMapOf r) (s := s) ⟨hmap, hrel⟩
  obtain ⟨hpm, hact, hports, hall⟩ := foldl_enable_all (allStations.filter (s.remapped (portMapOf r)).mapped)
    (fun p => (hport p).2)
  rw [← applyMap_eq] at hpm hact hports hall
  have hpm' : (applyMap (portMapOf r) s).portMap = portMapOf r := hpm
  have hmem : ∀ i, i ∈ allStations.filter (s.remapped (portMapOf r)).mapped ↔ (applyMap (portMapOf r) s).mapped i = true := by
    intro i
    have hm : (applyMap (portMapOf r) s).mapped i = (s.remapped (portMapOf r)).mapped i := by
      simp only [State.mapped, State.portOf, hpm]
    rw [hm, List.mem_filter]
    exact and_iff_right (List.mem_finRange i)
  refine ⟨_, answers_of_respond rfl h.taken hr, fun p hm => ?_, fun p hm hv => ?_, fun p hm hv => ?_, fun i hi => ?_,
    fun i hi hni => ?_, fun p => ?_⟩
  · rw [hpm', portMapOf_mapped hm]
  · rw [hpm', portMapOf_sequential hm, if_neg (by rw [hv]; decide)]
  · rw [hpm', portMapOf_sequential hm, if_pos hv]
  · rw [hact]
    exact (hall i).2 ((hmem i).mpr hi)
  · rw [hact, (hall i).1 (fun hin => Bool.false_ne_true (hni.symm.trans ((hmem i).mp hin)))]
    exact remapped_stn _ hi
  · rw [hports]
    exact hport p

end Sys2Proof.Machine
end

section
/-! SUPPORT. The layouts: every field is read back as it was written, and so is every body. -/

namespace Sys2Proof.Machine

open Sys2Proof

variable {n : Nat} {rest : List Byte}

/-! ### Fields -/

theorem toNat_byte1 (n : Nat) : (byte1 n).toNat = n % 256 := by rw [byte1, BitVec.toNat_ofNat]

theorem byte1_toNat (b : Byte) : byte1 b.toNat = b := by rw [byte1, BitVec.ofNat_toNat, BitVec.setWidth_eq]

theorem num2_bytes (h : n < 65536) : num2 (byte1 (n / 256)) (byte1 n) = n := by
  rw [num2, toNat_byte1, toNat_byte1]
  omega

theorem field1_byte1 (h : fits1 n = true) : field1 (byte1 n :: rest) = some (n, rest) := by
  have hn : n < 256 := of_decide_eq_true h
  rw [field1, toNat_byte1, Nat.mod_eq_of_lt hn]

theorem field1_cons (b : Byte) : field1 (b :: rest) = some (b.toNat, rest) := rfl

theorem field2_of_lt (h : n < 65536) : field2 (bytes2 n ++ rest) = some (n, rest) := by
  show some (num2 (byte1 (n / 256)) (byte1 n), rest) = _
  rw [num2_bytes h]

theorem field2_bytes2 (h : fits2 n = true) : field2 (bytes2 n ++ rest) = some (n, rest) :=
  field2_of_lt (of_decide_eq_true h)

theorem field2_word (w : Word) : field2 (bytes2 w.toNat ++ rest) = some (w.toNat, rest) := field2_of_lt w.isLt

theorem field4_of_lt (h : n < 4294967296) : field4 (bytes4 n ++ rest) = some (n, rest) := by
  show some (65536 * num2 (byte1 (n / 65536 / 256)) (byte1 (n / 65536))
    + num2 (byte1 (n % 65536 / 256)) (byte1 (n % 65536)), rest) = _
  rw [num2_bytes (by omega), num2_bytes (by omega), Nat.div_add_mod]

theorem field4_bytes4 (h : fits4 n = true) : field4 (bytes4 n ++ rest) = some (n, rest) :=
  field4_of_lt (of_decide_eq_true h)

theorem field4_value (v : BitVec 32) : field4 (bytes4 v.toNat ++ rest) = some (v.toNat, rest) := field4_of_lt v.isLt

theorem fieldBytes_append {bs : List Byte} (h : bs.length = n) : fieldBytes n (bs ++ rest) = some (bs, rest) := by
  subst h
  simp [fieldBytes]

/-- Words written as bytes are read back. -/
theorem bytesToWords_wordBytes (ws : List Word) : bytesToWords (wordBytes ws) = some ws := by
  induction ws with
  | nil => rfl
  | cons w ws ih =>
    have hn : num2 (byte1 (w.toNat / 256)) (byte1 (w.toNat % 256)) = w.toNat := by
      have hw := w.isLt
      rw [num2, toNat_byte1, toNat_byte1]
      omega
    rw [wordBytes, bytesToWords, ih, hn, Option.map_some, BitVec.ofNat_toNat, BitVec.setWidth_eq]

/-- An optional field is read back when its value is, present or as zeros (R182). -/
theorem fieldOpt_optField {α : Type} {f : List Byte → Option (α × List Byte)} {g : α → List Byte} {width : Nat}
    {x : Option α} (hsome : ∀ a, x = some a → f (g a ++ rest) = some (a, rest))
    (hnone : ∃ z, f (List.replicate width 0#8 ++ rest) = some (z, rest)) :
    fieldOpt f (optField width g x ++ rest) = some (x, rest) := by
  cases x with
  | none =>
    obtain ⟨z, hz⟩ := hnone
    simp [fieldOpt, optField, field1_cons, hz]
  | some a => simp [fieldOpt, optField, field1_cons, hsome a rfl]

theorem fieldOpt_word (x : Option Word) : fieldOpt field2 (optField 2 (fun w : Word => bytes2 w.toNat) x ++ rest)
    = some (x.map BitVec.toNat, rest) := by
  cases x with
  | none => rfl
  | some w =>
    have h := field2_word (rest := rest) w
    simp [fieldOpt, optField, field1_cons, h]

theorem fieldOpt_value (x : Option (BitVec 32)) :
    fieldOpt field4 (optField 4 (fun w : BitVec 32 => bytes4 w.toNat) x ++ rest) = some (x.map BitVec.toNat, rest) := by
  cases x with
  | none => rfl
  | some w =>
    have h := field4_value (rest := rest) w
    simp [fieldOpt, optField, field1_cons, h]

theorem fieldOpt_one {x : Option Nat} (h : fitsOpt fits1 x = true) :
    fieldOpt field1 (optField 1 (fun n => [byte1 n]) x ++ rest) = some (x, rest) :=
  fieldOpt_optField (fun a ha => by subst ha; exact field1_byte1 h) ⟨0, rfl⟩

theorem fieldOpt_two {x : Option Nat} (h : fitsOpt fits2 x = true) :
    fieldOpt field2 (optField 2 bytes2 x ++ rest) = some (x, rest) :=
  fieldOpt_optField (fun a ha => by subst ha; exact field2_bytes2 h) ⟨0, rfl⟩

theorem fieldOpt_four {x : Option Nat} (h : fitsOpt fits4 x = true) :
    fieldOpt field4 (optField 4 bytes4 x ++ rest) = some (x, rest) :=
  fieldOpt_optField (fun a ha => by subst ha; exact field4_bytes4 h) ⟨0, rfl⟩

theorem fieldOpt_name {x : Option (List Byte)} (h : fitsOpt (fun nm => decide (List.length nm = 16)) x = true) :
    fieldOpt (fieldBytes 16) (optField 16 (fun nm => nm) x ++ rest) = some (x, rest) :=
  fieldOpt_optField (fun a ha => by subst ha; exact fieldBytes_append (of_decide_eq_true h))
    ⟨List.replicate 16 0#8, fieldBytes_append (List.length_replicate)⟩

theorem fieldOpt_budget {x : Option (Nat × Nat)} (h : fitsOpt (fun b => fits1 b.1 && fits2 b.2) x = true) :
    fieldOpt fieldBudget (optField 3 (fun b => byte1 b.1 :: bytes2 b.2) x ++ rest) = some (x, rest) := by
  refine fieldOpt_optField (fun a ha => ?_) ⟨(0, 0), rfl⟩
  subst ha
  obtain ⟨h1, h2⟩ := Bool.and_eq_true_iff.mp h
  simp [fieldBudget, field1_byte1 h1, field2_bytes2 h2]

theorem fieldEight_values {v : Vector Nat 8} (h : v.toList.all fits1 = true) :
    fieldEight (v.toList.map byte1 ++ rest) = some (v, rest) := by
  obtain ⟨⟨l⟩, hl⟩ := v
  match l, hl with
  | [a, b, c, d, e, f, g, k], _ =>
    simp only [List.all_eq_true] at h
    have hb : ∀ n ∈ [a, b, c, d, e, f, g, k], (byte1 n).toNat = n := fun n hn => by
      rw [toNat_byte1, Nat.mod_eq_of_lt (of_decide_eq_true (h n hn))]
    simp only [List.forall_mem_cons, List.not_mem_nil, false_imp_iff, implies_true, and_true] at hb
    obtain ⟨h1, h2, h3, h4, h5, h6, h7, h8⟩ := hb
    show some (#v[(byte1 a).toNat, (byte1 b).toNat, (byte1 c).toNat, (byte1 d).toNat, (byte1 e).toNat, (byte1 f).toNat,
      (byte1 g).toNat, (byte1 k).toNat], rest) = _
    rw [h1, h2, h3, h4, h5, h6, h7, h8]

theorem map_ofNat_toNat {w : Nat} (x : Option (BitVec w)) : (x.map BitVec.toNat).map (BitVec.ofNat w) = x := by
  cases x <;> simp

/-- A field that is read leaves the rest of the body to the reads after it. -/
theorem read_then {α β : Type} {o : Option (α × List Byte)} {x : α × List Byte} {k : α × List Byte → Option β} {r : Option β}
    (h : o = some x) (hk : k x = r) : o >>= k = r := by
  rw [h]
  exact hk

theorem atEnd_nil {α : Type} (x : α) : atEnd x [] = some x := rfl

/-! ### Requests of the supervisor -/

/-- A body that is one one-byte field. -/
theorem oneByte_byte1 (f : Nat → SupRequest) (h : fits1 n = true) : oneByte f [byte1 n] = some (f n) := by
  simp [oneByte, field1_byte1 h, atEnd_nil]

section
variable {kind : Byte} {body : List Byte} {q : SupRequest}

theorem parseRequest_of_some (h : parseRequest? kind body = some q) : parseRequest kind body = q := by
  rw [parseRequest, h, Option.getD_some]

end

theorem parse_setPortMap {r : PortMapReq} (h : r.wf = true) :
    parseRequest? 0x40#8 (SupRequest.body (.setPortMap r)) = some (.setPortMap r) := by
  simp only [PortMapReq.wf, Bool.and_eq_true] at h
  obtain ⟨h1, h2⟩ := h
  have hv := fieldEight_values (rest := []) h2
  rw [List.append_nil] at hv
  simp [parseRequest?, SupRequest.body, field1_byte1 h1, hv, atEnd_nil]

theorem parse_setStation {r : StationReq} (h : r.wf = true) :
    parseRequest? 0x41#8 (SupRequest.body (.setStation r)) = some (.setStation r) := by
  simp only [StationReq.wf, Bool.and_eq_true, decide_eq_true_eq] at h
  obtain ⟨⟨⟨⟨⟨⟨h1, h2⟩, h3⟩, h4⟩, h5⟩, h6⟩, h7⟩ := h
  have hp : parseRequest? 0x41#8 (SupRequest.body (.setStation r)) = parseSetStation (SupRequest.body (.setStation r)) := rfl
  rw [hp]
  simp only [parseSetStation, SupRequest.body, List.cons_append, List.append_assoc, field1_byte1 h1, fieldBytes_append h2,
    fieldOpt_word, fieldOpt_value, fieldOpt_one h3, field2_bytes2 h4, field2_bytes2 h5, field1_byte1 h6, field1_byte1 h7,
    Option.bind_eq_bind, Option.bind_some, map_ofNat_toNat, atEnd_nil]

theorem parse_setInput {r : InputReq} (h : r.wf = true) :
    parseRequest? 0x42#8 (SupRequest.body (.setInput r)) = some (.setInput r) := by
  simp only [InputReq.wf, Bool.and_eq_true] at h
  obtain ⟨⟨h1, h2⟩, h3⟩ := h
  simp [parseRequest?, SupRequest.body, field1_byte1 h1, field2_bytes2 h2, field1_byte1 h3, atEnd_nil]

theorem parse_setTiming {t : Timing} (h : t.wf = true) :
    parseRequest? 0x43#8 (SupRequest.body (.setTiming t)) = some (.setTiming t) := by
  simp only [Timing.wf, Bool.and_eq_true] at h
  obtain ⟨⟨⟨⟨⟨h1, h2⟩, h3⟩, h4⟩, h5⟩, h6⟩ := h
  have hlast := field2_bytes2 (rest := []) h6
  rw [List.append_nil] at hlast
  simp [parseRequest?, SupRequest.body, field2_bytes2 h1, field2_bytes2 h2, field2_bytes2 h3, field2_bytes2 h4,
    field2_bytes2 h5, hlast, atEnd_nil]

theorem parse_loadWindow {r : WindowReq} (h : r.wf = true) :
    parseRequest? 0x44#8 (SupRequest.body (.loadWindow r)) = some (.loadWindow r) := by
  simp only [WindowReq.wf, Bool.and_eq_true] at h
  obtain ⟨⟨⟨h1, h2⟩, h3⟩, h4⟩ := h
  simp [parseRequest?, SupRequest.body, field1_byte1 h1, field2_bytes2 h2, field2_bytes2 h3, field1_byte1 h4, atEnd_nil]

theorem parse_loadParameter {r : ParameterReq} (h : r.wf = true) :
    parseRequest? 0x45#8 (SupRequest.body (.loadParameter r)) = some (.loadParameter r) := by
  simp only [ParameterReq.wf, Bool.and_eq_true] at h
  obtain ⟨⟨⟨⟨⟨⟨⟨⟨⟨⟨⟨h1, h2⟩, h3⟩, h4⟩, h5⟩, h6⟩, h7⟩, h8⟩, h9⟩, h10⟩, h11⟩, h12⟩ := h
  have hlast := fieldOpt_budget (rest := []) (x := r.budget) (by simpa using h12)
  rw [List.append_nil] at hlast
  have hbody : SupRequest.body (.loadParameter r) = byte1 r.index :: byte1 r.station :: (bytes2 r.block ++ (byte1 r.offset ::
      byte1 r.width :: byte1 r.kind :: (bytes4 r.hmin.toNat ++ (bytes4 r.hmax.toNat ++ (bytes4 r.defaultBase.toNat
      ++ (bytes4 r.current.toNat ++ (bytes4 r.low ++ (bytes4 r.high ++ (optField 4 bytes4 r.step ++ (optField 2 bytes2 r.grain
      ++ (byte1 r.mode :: optField 3 (fun b => byte1 b.1 :: bytes2 b.2) r.budget))))))))))) := by
    simp only [SupRequest.body, List.cons_append, List.nil_append, List.append_assoc]
  have hp : parseRequest? 0x45#8 (SupRequest.body (.loadParameter r))
      = parseLoadParameter (SupRequest.body (.loadParameter r)) := rfl
  rw [hp, hbody, parseLoadParameter]
  refine read_then (field1_byte1 h1) (read_then (field1_byte1 h2) (read_then (field2_bytes2 h3) ?_))
  refine read_then (field1_byte1 h4) (read_then (field1_byte1 h5) (read_then (field1_byte1 h6) ?_))
  refine read_then (field4_value r.hmin) (read_then (field4_value r.hmax) (read_then (field4_value r.defaultBase) ?_))
  refine read_then (field4_value r.current) (read_then (field4_bytes4 h7) (read_then (field4_bytes4 h8) ?_))
  refine read_then (fieldOpt_four h9) (read_then (fieldOpt_two h10) (read_then (field1_byte1 h11) ?_))
  refine read_then hlast ?_
  simp only [BitVec.ofNat_toNat, BitVec.setWidth_eq, atEnd_nil]

theorem parse_loadImage {r : ImageReq} (h : r.wf = true) :
    parseRequest? 0x46#8 (SupRequest.body (.loadImage r)) = some (.loadImage r) := by
  simp only [ImageReq.wf, Bool.and_eq_true] at h
  obtain ⟨h1, h2⟩ := h
  have hlast := field2_bytes2 (rest := []) h2
  rw [List.append_nil] at hlast
  simp [parseRequest?, SupRequest.body, field1_byte1 h1, hlast, atEnd_nil]

theorem parse_loadImageWords {r : ImageWordsReq} (h : r.wf = true) :
    parseRequest? 0x47#8 (SupRequest.body (.loadImageWords r)) = some (.loadImageWords r) := by
  simp only [ImageWordsReq.wf, Bool.and_eq_true, decide_eq_true_eq] at h
  obtain ⟨⟨⟨h1, h2⟩, h3⟩, h4⟩ := h
  simp [parseRequest?, SupRequest.body, field1_byte1 h1, field1_byte1 h2, field1_byte1 h3, bytesToWords_wordBytes, h4]

theorem parse_addAuditEntry {r : AuditReq} (h : r.wf = true) :
    parseRequest? 0x48#8 (SupRequest.body (.addAuditEntry r)) = some (.addAuditEntry r) := by
  simp only [AuditReq.wf, Bool.and_eq_true] at h
  obtain ⟨⟨⟨⟨h1, h2⟩, h3⟩, h4⟩, h5⟩ := h
  have hlast := fieldOpt_one (rest := []) h5
  rw [List.append_nil] at hlast
  simp [parseRequest?, SupRequest.body, field1_byte1 h1, field2_bytes2 h2, field2_bytes2 h3, field1_byte1 h4, hlast,
    atEnd_nil]

theorem parse_loadRecipe {r : RecipeReq} (h : r.wf = true) :
    parseRequest? 0x49#8 (SupRequest.body (.loadRecipe r)) = some (.loadRecipe r) := by
  simp only [RecipeReq.wf, Bool.and_eq_true] at h
  obtain ⟨h1, h2⟩ := h
  have hlast := fieldOpt_name (rest := []) h2
  rw [List.append_nil] at hlast
  simp [parseRequest?, SupRequest.body, field1_byte1 h1, hlast, atEnd_nil]

theorem parse_loadRecipeBlock {r : RecipeBlockReq} (h : r.wf = true) :
    parseRequest? 0x4A#8 (SupRequest.body (.loadRecipeBlock r)) = some (.loadRecipeBlock r) := by
  simp only [RecipeBlockReq.wf, Bool.and_eq_true] at h
  obtain ⟨⟨⟨⟨h1, h2⟩, h3⟩, h4⟩, h5⟩ := h
  simp [parseRequest?, SupRequest.body, field1_byte1 h1, field1_byte1 h2, field2_bytes2 h3, field1_byte1 h4,
    field1_byte1 h5, atEnd_nil]

theorem parse_loadRecipeValue {r : RecipeValueReq} (h : r.wf = true) :
    parseRequest? 0x4B#8 (SupRequest.body (.loadRecipeValue r)) = some (.loadRecipeValue r) := by
  simp only [RecipeValueReq.wf, Bool.and_eq_true] at h
  obtain ⟨h1, h2⟩ := h
  have hlast := field4_value (rest := []) r.value
  rw [List.append_nil] at hlast
  simp [parseRequest?, SupRequest.body, field1_byte1 h1, field1_byte1 h2, hlast, atEnd_nil]

theorem parse_directRead {r : DirectReadReq} (h : r.wf = true) :
    parseRequest? 0x5A#8 (SupRequest.body (.directRead r)) = some (.directRead r) := by
  simp only [DirectReadReq.wf, Bool.and_eq_true] at h
  obtain ⟨⟨⟨h1, h2⟩, h3⟩, h4⟩ := h
  simp [parseRequest?, SupRequest.body, field1_byte1 h1, field2_bytes2 h2, field1_byte1 h3, field1_byte1 h4, atEnd_nil]

theorem parse_capture {r : CaptureReq} (h : r.wf = true) :
    parseRequest? 0x5B#8 (SupRequest.body (.capture r)) = some (.capture r) := by
  simp only [CaptureReq.wf, Bool.and_eq_true] at h
  obtain ⟨⟨h1, h2⟩, h3⟩ := h
  simp [parseRequest?, SupRequest.body, field1_byte1 h1, field2_bytes2 h2, field1_byte1 h3, atEnd_nil]

/-- Every well-formed request is read back (R182). -/
theorem parseRequest_body (q : SupRequest) (h : q.wf = true) (hq : q ≠ .badRecord) :
    parseRequest? (SupRequest.kind q) (SupRequest.body q) = some q := by
  cases q with
  | setPortMap r => exact parse_setPortMap h
  | setStation r => exact parse_setStation h
  | setInput r => exact parse_setInput h
  | setTiming r => exact parse_setTiming h
  | loadWindow r => exact parse_loadWindow h
  | loadParameter r => exact parse_loadParameter h
  | loadImage r => exact parse_loadImage h
  | loadImageWords r => exact parse_loadImageWords h
  | addAuditEntry r => exact parse_addAuditEntry h
  | loadRecipe r => exact parse_loadRecipe h
  | loadRecipeBlock r => exact parse_loadRecipeBlock h
  | loadRecipeValue r => exact parse_loadRecipeValue h
  | directRead r => exact parse_directRead h
  | capture r => exact parse_capture h
  | setActiveFormat n => exact oneByte_byte1 _ h
  | readStation n => exact oneByte_byte1 _ h
  | readParameter n => exact oneByte_byte1 _ h
  | readAuditEntry n => exact oneByte_byte1 _ h
  | ackDrift n => exact oneByte_byte1 _ h
  | auditNow n => exact oneByte_byte1 _ h
  | releaseStation n => exact oneByte_byte1 _ h
  | takeAccessResult n => exact oneByte_byte1 _ h
  | openChangeover n => exact oneByte_byte1 _ h
  | restoreBlock n => exact oneByte_byte1 _ h
  | badRecord => exact absurd rfl hq
  | clearTables => rfl
  | arm => rfl
  | disarm => rfl
  | lock => rfl
  | restart => rfl
  | status => rfl
  | takeEvents => rfl
  | applyChangeover => rfl
  | cancelChangeover => rfl
  | revertChangeover => rfl
  | closeChangeover => rfl

/-! ### Requests of a tool and replies of a station -/

theorem byte1_toNat_of_fits (h : fits1 n = true) : (byte1 n).toNat = n := by
  rw [toNat_byte1, Nat.mod_eq_of_lt (of_decide_eq_true h)]

theorem parseTool_body (q : ToolRequest) (h : q.wf = true) : parseTool (ToolRequest.kind q) (ToolRequest.body q) = q := by
  cases q with
  | list => rfl
  | bad => cases h
  | read r =>
    simp only [ToolRequest.wf, ToolReadReq.wf, Bool.and_eq_true] at h
    obtain ⟨⟨⟨h1, h2⟩, h3⟩, h4⟩ := h
    have hb := num2_bytes (of_decide_eq_true h2)
    simp [parseTool, ToolRequest.kind, ToolRequest.body, bytes2, hb, byte1_toNat_of_fits h1, byte1_toNat_of_fits h3,
      byte1_toNat_of_fits h4]
  | write r =>
    simp only [ToolRequest.wf, ToolWriteReq.wf, Bool.and_eq_true, decide_eq_true_eq] at h
    obtain ⟨⟨⟨⟨h1, h2⟩, h3⟩, h4⟩, h5⟩ := h
    have hb := num2_bytes (of_decide_eq_true h2)
    simp [parseTool, ToolRequest.kind, ToolRequest.body, bytes2, hb, byte1_toNat_of_fits h1, byte1_toNat_of_fits h3,
      byte1_toNat_of_fits h4, bytesToWords_wordBytes, h5]

theorem parseReply_body (r : StationReply) (h : r.wf = true) :
    parseReply (StationReply.kind r) (StationReply.body r) = some r := by
  cases r with
  | identReply mk md fw sn hi wf =>
    simp [parseReply, StationReply.kind, StationReply.body, field2_word, field4_value, field1_cons, atEnd_nil,
      byte1_toNat]
  | ack => rfl
  | echoReply bytes =>
    have hlen : bytes.length = 32 := of_decide_eq_true h
    simp [parseReply, StationReply.kind, StationReply.body, hlen]
  | stateReply m v =>
    have hlast := field2_word (rest := []) v
    rw [List.append_nil] at hlast
    simp [parseReply, StationReply.kind, StationReply.body, field1_cons, hlast, atEnd_nil, byte1_toNat]
  | data ws => simp [parseReply, StationReply.kind, StationReply.body, bytesToWords_wordBytes]
  | sumReply a b =>
    have hlast := field2_word (rest := []) b
    rw [List.append_nil] at hlast
    simp [parseReply, StationReply.kind, StationReply.body, field2_word, hlast, atEnd_nil]
  | reject b => simp [parseReply, StationReply.kind, StationReply.body, field1_cons, atEnd_nil, byte1_toNat]

/-- Settles O32. -/
theorem bodiesRoundTrip : Obligations.BodiesRoundTrip :=
  ⟨fun q h hq => parseRequest_of_some (parseRequest_body q h hq), parseTool_body, parseReply_body⟩

end Sys2Proof.Machine
end

section
/-! SUPPORT. A tool operation that fills its slot: what the first transaction of a read and of a relay leaves, on an idle
and on an occupied link. -/

namespace Sys2Proof.Machine

open Sys2Proof

variable {s t x : State} {i j : Station} {e : EngId} {tag : Byte} {op : ToolOp} {p : Port} {h : ReleaseHolder}

/-! ### States alike but for a station -/

theorem SameBut.trans (h1 : SameBut i s t) (h2 : SameBut i t x) : SameBut i s x := by
  obtain ⟨he1, hj1⟩ := h1
  obtain ⟨he2, hj2⟩ := h2
  refine ⟨?_, fun j hj => ⟨(hj2 j hj).1.trans (hj1 j hj).1, (hj2 j hj).2.trans (hj1 j hj).2⟩⟩
  exact (congrArg (fun y : State => { y with stations := s.stations, links := s.links, events := s.events }) he2 :).trans he1

theorem sameBut_modStn (i : Station) (f : StationRec → StationRec) (s : State) : SameBut i s (s.modStn i f) :=
  ⟨rfl, fun _ hj => ⟨stn_modStn_ne _ _ (Ne.symm hj), rfl⟩⟩

theorem sameBut_modLink (i : Station) (f : LinkRec → LinkRec) (s : State) : SameBut i s (s.modLink i f) :=
  ⟨rfl, fun _ hj => ⟨rfl, link_modLink_ne _ _ (Ne.symm hj)⟩⟩

theorem sameBut_post (i : Station) (src : Source) (d : Detail) (s : State) : SameBut i s (post src d s) :=
  ⟨rfl, fun _ _ => ⟨rfl, rfl⟩⟩

/-- The engineering ports set aside. -/
theorem SameBut.withEng {f : EngPort → EngPort} (h : SameBut i (s.modEng e f) t) : SameBut i s { t with eng := s.eng } :=
  ⟨(congrArg (fun y : State => { y with eng := s.eng }) h.1 :), h.2⟩

/-- The inhibit ports set aside. -/
theorem SameBut.withPorts {v : Vector InhibitPort 8} (h : SameBut i (s.setPorts v) t) :
    SameBut i s { t with ports := s.ports } :=
  ⟨(congrArg (fun y : State => { y with ports := s.ports }) h.1 :), h.2⟩

/-- Both set aside. -/
theorem SameBut.withEngPorts {f : EngPort → EngPort} {v : Vector InhibitPort 8}
    (h : SameBut i ((s.modEng e f).setPorts v) t) : SameBut i s { t with eng := s.eng, ports := s.ports } :=
  ⟨(congrArg (fun y : State => { y with eng := s.eng, ports := s.ports }) h.1 :), h.2⟩

/-! ### Releases granted -/

/-- A port whose output is released for an operation (R26, R27). -/
def InhibitPort.releasedFor (r : InhibitPort) (h : ReleaseHolder) (settle : Nat) : InhibitPort :=
  { r with holder := some h, driven := .released, limitTimer := some Config.releaseLimit,
           settleTimer := if settle = 0 then none else some settle }

theorem grantRelease_frame (i : Station) (h : ReleaseHolder) (s : State) :
    grantRelease i h s = s.setPorts (grantRelease i h s).ports := by
  unfold grantRelease
  split <;> rfl

theorem grantRelease_port (hp : s.portOf i = some p) : ∃ m, (grantRelease i h s).port p
    = { (s.port p).releasedFor h s.roster[i].releaseSettle with monitor := m } := by
  rw [grantRelease]
  simp only [hp, syncMonitor, port_modPort_self]
  exact ⟨_, rfl⟩

theorem grantRelease_port_other {q : Port} (hq : s.portOf i ≠ some q) : (grantRelease i h s).port q = s.port q := by
  unfold grantRelease
  split
  · rfl
  · next p hp =>
    have hne : p ≠ q := by
      rintro rfl
      exact hq hp
    simp [syncMonitor, hne]

@[simp] theorem grantRelease_stn : (grantRelease i h s).stn j = s.stn j := by
  rw [grantRelease_frame, State.setPorts_stn]
@[simp] theorem grantRelease_link : (grantRelease i h s).link j = s.link j := by
  rw [grantRelease_frame, State.setPorts_link]
@[simp] theorem grantRelease_engp : (grantRelease i h s).engp e = s.engp e := by
  rw [grantRelease_frame, State.setPorts_engp]
@[simp] theorem grantRelease_events : (grantRelease i h s).events = s.events := by
  rw [grantRelease_frame, State.setPorts_events]
@[simp] theorem grantRelease_roster : (grantRelease i h s).roster = s.roster := by
  rw [grantRelease_frame, State.setPorts_roster]

theorem releaseAnswer_notNeeded (hp : s.portOf i = some p) (hj : (s.port p).jumper = .none) :
    releaseAnswer i s = .notNeeded := by
  simp [releaseAnswer, hp, hj]

theorem releaseAnswer_granted (hp : s.portOf i = some p) (hj : (s.port p).jumper ≠ .none)
    (hon : (s.stn i).state = .online) (hf : (s.port p).monitor ≠ .fault) (hh : (s.port p).holder = none) :
    releaseAnswer i s = .granted (decide (s.roster[i].releaseSettle = 0)) := by
  simp [releaseAnswer, hp, hj, online_of_state hon, hf, hh]

/-! ### The slot -/

/-- An operation in its station's slot, with its port waiting for it (R49, R50). -/
def State.slotted (s : State) (i : Station) (op : ToolOp) : State :=
  (s.modEng op.port (fun p => { p with state := .waiting, awaited := some i })).modStn i (fun r => { r with slot := some op })

@[simp] theorem slotted_stn_self : (s.slotted i op).stn i = { s.stn i with slot := some op } := by simp [State.slotted]
@[simp] theorem slotted_link (j : Station) : (s.slotted i op).link j = s.link j := rfl
@[simp] theorem slotted_port (p : Port) : (s.slotted i op).port p = s.port p := rfl
@[simp] theorem slotted_portOf (j : Station) : (s.slotted i op).portOf j = s.portOf j := rfl
@[simp] theorem slotted_roster : (s.slotted i op).roster = s.roster := rfl
@[simp] theorem slotted_events : (s.slotted i op).events = s.events := rfl
@[simp] theorem slotted_engp_self :
    (s.slotted i op).engp op.port = { s.engp op.port with state := .waiting, awaited := some i } := by
  simp [State.slotted]

@[simp] theorem heldBy_stn (u : LinkUser) (j : Station) : (s.heldBy i u).stn j = s.stn j := rfl
@[simp] theorem heldBy_port (u : LinkUser) (q : Port) : (s.heldBy i u).port q = s.port q := rfl
@[simp] theorem heldBy_portOf (u : LinkUser) (j : Station) : (s.heldBy i u).portOf j = s.portOf j := rfl
@[simp] theorem heldBy_engp (u : LinkUser) (d : EngId) : (s.heldBy i u).engp d = s.engp d := rfl
@[simp] theorem heldBy_events (u : LinkUser) : (s.heldBy i u).events = s.events := rfl
@[simp] theorem heldBy_roster (u : LinkUser) : (s.heldBy i u).roster = s.roster := rfl
@[simp] theorem heldBy_link_self (u : LinkUser) : (s.heldBy i u).link i = { s.link i with holder := some u } := by
  simp [State.heldBy]

/-- The port of an operation that fills its slot waits for it. -/
def EngPort.waitingFor (i : Station) (p : EngPort) : EngPort := { p with state := .waiting, awaited := some i }

theorem sameBut_slotted (i : Station) (op : ToolOp) (s : State) :
    SameBut i (s.modEng op.port (EngPort.waitingFor i)) (s.slotted i op) := sameBut_modStn i _ _

theorem sameBut_heldBy (i : Station) (u : LinkUser) (s : State) : SameBut i s (s.heldBy i u) := sameBut_modLink i _ s

theorem sameBut_modSlot (i : Station) (f : ToolOp → ToolOp) (s : State) : SameBut i s (modSlot i f s) :=
  sameBut_modStn i _ s

theorem fillSlot_eq (i : Station) (op : ToolOp) (s : State) : fillSlot i op s = place i .tool (s.slotted i op) := rfl

@[simp] theorem modSlot_link (f : ToolOp → ToolOp) (j : Station) : (modSlot i f s).link j = s.link j := rfl
@[simp] theorem modSlot_port (f : ToolOp → ToolOp) (q : Port) : (modSlot i f s).port q = s.port q := rfl
@[simp] theorem modSlot_engp (f : ToolOp → ToolOp) (d : EngId) : (modSlot i f s).engp d = s.engp d := rfl
@[simp] theorem modSlot_events (f : ToolOp → ToolOp) : (modSlot i f s).events = s.events := rfl
@[simp] theorem modSlot_stn_self (f : ToolOp → ToolOp) :
    (modSlot i f s).stn i = { s.stn i with slot := (s.stn i).slot.map f } := by simp [modSlot]

/-- The operation starts on an idle link at once (R19, R49, R50). -/
theorem fillSlot_idle (hi : s.idleLink i)
    (ho : (startTool i ((s.slotted i op).heldBy i .tool)).occupied i) :
    fillSlot i op s = startTool i ((s.slotted i op).heldBy i .tool) :=
  place_idle (s := s.slotted i op) (u := .tool) hi ho

/-- On an occupied link it waits. -/
theorem fillSlot_occupied (ho : s.occupied i) : fillSlot i op s = addWaiter i .tool (s.slotted i op) :=
  place_occupied (s := s.slotted i op) ho

/-- The first READ of a tool's read (R94). -/
theorem startTool_read (hs : (x.stn i).slot = some op) (hw : op.write = false) (hg : op.got = []) :
    startTool i x = modSlot i (fun op => { op with phase := .reading })
      (sendRequest i (.read op.block op.offset (min (x.stn i).wordsPerFrame op.count)) .tool x) := by
  simp only [startTool, hs, hw, Bool.false_eq_true, if_false, sendToolRead, hg, List.length_nil, Nat.add_zero, Nat.sub_zero,
    chunk]

/-- The first WRITE frame of a relay (R80). -/
theorem sendToolWrite_first (ha : op.acked = 0) :
    sendToolWrite i op x = modSlot i (fun op => { op with phase := .writing, writeSent := true })
      (sendRequest i (.write op.block op.offset (op.words.take (min (x.stn i).wordsPerFrame op.words.length))) .tool x) := by
  simp only [sendToolWrite, ha, Nat.add_zero, Nat.sub_zero, List.drop_zero, chunk]

theorem startTool_write (hs : (x.stn i).slot = some op) (hw : op.write = true) :
    startTool i x = match releaseAnswer i x with
      | .notNeeded => sendToolWrite i op x
      | .granted true => sendToolWrite i op (grantRelease i (.tool i) x)
      | .granted false => modSlot i (fun op => { op with phase := .settling }) (grantRelease i (.tool i) x)
      | .refused => relayReport i op (.failed .inhibit) (relayClose i x) := by
  simp only [startTool, hs, hw, if_true] <;> rfl

/-! ### READ admitted -/

theorem takeToolRead_admitted {r : ToolReadReq} (hon : (s.stn i).state = .online) (hs : (s.stn i).slot = none) :
    takeToolRead e tag i r s = fillSlot i (newOp (s.engp e) e tag false r.block r.offset r.count [] false false []) s := by
  have hr : readRefusal s i = none := by simp [readRefusal, up_of_online hon, hon, hs]
  rw [takeToolRead, hr]

/-- What an operation that waits for an occupied link leaves. -/
theorem waiting_tool (hp : op.port = e) :
    let t := addWaiter i .tool (s.slotted i op)
    (t.engp e).state = .waiting ∧ (t.engp e).awaited = some i ∧ (t.stn i).slot = some op
      ∧ t.link i = { s.link i with waiters := (s.link i).waiters ++ [.tool] }
      ∧ SameBut i s { t with eng := s.eng } ∧ t.events = s.events := by
  subst hp
  refine ⟨?_, ?_, ?_, ?_, ?_, rfl⟩
  · simp [addWaiter]
  · simp [addWaiter]
  · simp [addWaiter]
  · simp [addWaiter]
  · exact ((sameBut_slotted i op s).trans (sameBut_modLink i _ _)).withEng

/-- What an operation whose first request goes out on an idle link leaves. -/
theorem asking_tool (hp : op.port = e) (f : ToolOp → ToolOp) (q : StationRequest) :
    let t := modSlot i f (sendRequest i q .tool ((s.slotted i op).heldBy i .tool))
    (t.engp e).state = .waiting ∧ (t.engp e).awaited = some i ∧ (t.stn i).slot = some (f op)
      ∧ (t.link i).holder = some .tool ∧ (t.link i).inFlight = some
        { seq := (s.stn i).nextSeq, request := q, owner := some .tool, timeout := s.roster[i].replyTimeout }
      ∧ SameBut i s { t with eng := s.eng } ∧ t.events = s.events := by
  subst hp
  refine ⟨?_, ?_, ?_, ?_, ?_, ?_, ?_⟩
  · simp
  · simp
  · simp
  · simp
  · simp [State.sending]
  · have hheld := (sameBut_slotted i op s).trans (sameBut_heldBy i .tool (s.slotted i op))
    have hsent := hheld.trans (sameBut_sendRequest i q .tool _)
    exact (hsent.trans (sameBut_modSlot i f _)).withEng
  · simp

/-- Settles O34. -/
theorem toolReadAdmitted : Obligations.ToolReadAdmitted := by
  intro e tag r s i hp hr hi hb h1 hc ho
  have hready := toolRead_ready (tag := tag) hp hr (readStationOf_eq_some hi hb h1 hc ho)
  have answered : ∀ a, readRefusal s i = some a → exec (.toolRead e tag r) s = .next (sendTool e tag a s) :=
    fun a ha => hready.trans (congrArg _ (takeToolRead_refused ha))
  refine ⟨fun hon hs hh hw hf => ?_, fun hon hs hocc => ?_, fun hon hs => ?_, fun hq => ?_, fun hon hq => ?_⟩
  · let op := newOp (s.engp e) e tag false r.block r.offset r.count [] false false []
    have hst := startTool_read (x := (s.slotted i op).heldBy i .tool) (i := i) (op := op) (by simp) rfl rfl
    have hex : exec (.toolRead e tag r) s = .next (startTool i ((s.slotted i op).heldBy i .tool)) := by
      rw [hready, takeToolRead_admitted hon hs, fillSlot_idle ⟨hh, hw, hf⟩]
      rw [hst]
      exact sendRequest_occupied _ _ _ _
    rw [hst] at hex
    obtain ⟨hwait, hawait, hslot, hhold, hsent, hsame, hev⟩ := asking_tool (s := s) (i := i) (op := op) (e := e) rfl
      (fun op => { op with phase := .reading })
      (.read op.block op.offset (min (((s.slotted i op).heldBy i .tool).stn i).wordsPerFrame op.count))
    have hwords : (((s.slotted i op).heldBy i .tool).stn i).wordsPerFrame = (s.stn i).wordsPerFrame :=
      (congrArg StationRec.wordsPerFrame (slotted_stn_self (s := s) (i := i) (op := op)) :)
    refine ⟨_, _, hex, hwait, hawait, hslot, rfl, rfl, rfl, rfl, rfl, rfl, hhold, ?_, hsame, hev⟩
    rw [hsent, hwords]
    rfl
  · obtain ⟨ha, hb', hs', hl, hsame, hev⟩ := waiting_tool (s := s) (i := i)
      (op := newOp (s.engp e) e tag false r.block r.offset r.count [] false false []) (e := e) rfl
    refine ⟨_, _, ?_, ha, hb', hs', rfl, rfl, rfl, rfl, hl, hsame, hev⟩
    rw [hready, takeToolRead_admitted hon hs, fillSlot_occupied hocc]
  · exact answered _ (by simp [readRefusal, up_of_online hon, hon, Option.isSome_iff_ne_none, hs])
  · exact answered _ (by simp [readRefusal, up_of_quarantined hq, hq])
  · exact answered _ (by simp [readRefusal, up_false hon hq])

end Sys2Proof.Machine
end

section
/-! SUPPORT. An admitted tool WRITE. -/

namespace Sys2Proof.Machine

open Sys2Proof

variable {s t x : State} {i j : Station} {e : EngId} {tag : Byte} {op : ToolOp} {p : Port} {r : ToolWriteReq}

/-- A relay placed on an idle link, with the inhibit ports as its release leaves them. -/
def State.relayPlaced (s : State) (i : Station) (op : ToolOp) (v : Vector InhibitPort 8) : State :=
  ((s.slotted i op).heldBy i .tool).setPorts v

theorem relayPlaced_same (s : State) (i : Station) (op : ToolOp) :
    s.relayPlaced i op s.ports = (s.slotted i op).heldBy i .tool := rfl

theorem sameBut_relayPlaced (s : State) (i : Station) (op : ToolOp) (v : Vector InhibitPort 8) :
    SameBut i ((s.modEng op.port (EngPort.waitingFor i)).setPorts v) (s.relayPlaced i op v) := by
  have h := (sameBut_slotted i op s).trans (sameBut_heldBy i .tool (s.slotted i op))
  exact ⟨(congrArg (fun y : State => y.setPorts v) h.1 :), h.2⟩

@[simp] theorem relayPlaced_stn_self {v : Vector InhibitPort 8} :
    (s.relayPlaced i op v).stn i = { s.stn i with slot := some op } := slotted_stn_self
@[simp] theorem relayPlaced_link_self {v : Vector InhibitPort 8} :
    (s.relayPlaced i op v).link i = { s.link i with holder := some .tool } :=
  heldBy_link_self (s := s.slotted i op) LinkUser.tool
@[simp] theorem relayPlaced_engp_self {v : Vector InhibitPort 8} :
    (s.relayPlaced i op v).engp op.port = { s.engp op.port with state := .waiting, awaited := some i } := slotted_engp_self
@[simp] theorem relayPlaced_ports {v : Vector InhibitPort 8} : (s.relayPlaced i op v).ports = v := rfl
@[simp] theorem relayPlaced_events {v : Vector InhibitPort 8} : (s.relayPlaced i op v).events = s.events := rfl
@[simp] theorem relayPlaced_roster {v : Vector InhibitPort 8} : (s.relayPlaced i op v).roster = s.roster := rfl

/-- What a relay leaves whose first WRITE goes out. -/
theorem asking_relay (hp : op.port = e) (v : Vector InhibitPort 8) (f : ToolOp → ToolOp) (q : StationRequest) :
    let t := modSlot i f (sendRequest i q .tool (s.relayPlaced i op v))
    (t.engp e).state = .waiting ∧ (t.engp e).awaited = some i ∧ (t.stn i).slot = some (f op)
      ∧ (t.link i).holder = some .tool ∧ (t.link i).inFlight = some
        { seq := (s.stn i).nextSeq, request := q, owner := some .tool, timeout := s.roster[i].replyTimeout }
      ∧ (∀ p, t.port p = v[p]) ∧ SameBut i s { t with eng := s.eng, ports := s.ports } ∧ t.events = s.events := by
  subst hp
  refine ⟨?_, ?_, ?_, ?_, ?_, fun p => ?_, ?_, ?_⟩
  · simp
  · simp
  · simp
  · simp
  · simp [State.sending]
  · simp [State.port]
    rfl
  · have hsent := (sameBut_relayPlaced s i op v).trans (sameBut_sendRequest i q .tool _)
    exact (hsent.trans (sameBut_modSlot i f _)).withEngPorts
  · simp

/-- What a relay leaves that waits for its port to settle. -/
theorem settling_relay (hp : op.port = e) (v : Vector InhibitPort 8) (f : ToolOp → ToolOp) :
    let t := modSlot i f (s.relayPlaced i op v)
    (t.engp e).state = .waiting ∧ (t.engp e).awaited = some i ∧ (t.stn i).slot = some (f op)
      ∧ (t.link i).holder = some .tool ∧ (t.link i).inFlight = (s.link i).inFlight
      ∧ (∀ p, t.port p = v[p]) ∧ SameBut i s { t with eng := s.eng, ports := s.ports } ∧ t.events = s.events := by
  subst hp
  refine ⟨?_, ?_, ?_, ?_, ?_, fun p => ?_, ?_, ?_⟩
  · simp
  · simp
  · simp
  · simp
  · simp
  · simp [State.port]
    rfl
  · exact ((sameBut_relayPlaced s i op v).trans (sameBut_modSlot i f _)).withEngPorts
  · simp

@[simp] theorem relayPlaced_portOf {v : Vector InhibitPort 8} : (s.relayPlaced i op v).portOf j = s.portOf j := rfl

/-- A relay on a port of jumper NONE sends its first WRITE without a release (R79). -/
theorem startTool_unmonitored (hw : op.write = true) (ha : op.acked = 0) (hp : s.portOf i = some p)
    (hj : (s.port p).jumper = .none) :
    startTool i (s.relayPlaced i op s.ports) = modSlot i (fun op => { op with phase := .writing, writeSent := true })
      (sendRequest i (.write op.block op.offset (op.words.take (min (s.stn i).wordsPerFrame op.words.length))) .tool
        (s.relayPlaced i op s.ports)) := by
  have hrel : releaseAnswer i (s.relayPlaced i op s.ports) = .notNeeded := releaseAnswer_notNeeded (p := p) hp hj
  rw [startTool_write (i := i) (x := s.relayPlaced i op s.ports) (op := op) (by simp) hw, hrel]
  simp only [sendToolWrite_first ha, relayPlaced_stn_self]

/-- A relay on another port releases the output first, and with a settle of 0 sends its first WRITE at once (R26, R79). -/
theorem startTool_released (hw : op.write = true) (ha : op.acked = 0) (hp : s.portOf i = some p)
    (hj : (s.port p).jumper ≠ .none) (hon : (s.stn i).state = .online) (hf : (s.port p).monitor ≠ .fault)
    (hh : (s.port p).holder = none) :
    ∃ (v : Vector InhibitPort 8) (m : Monitor),
      v[p] = { (s.port p).releasedFor (.tool i) s.roster[i].releaseSettle with monitor := m }
      ∧ (s.roster[i].releaseSettle = 0 → startTool i (s.relayPlaced i op s.ports)
          = modSlot i (fun op => { op with phase := .writing, writeSent := true })
            (sendRequest i (.write op.block op.offset (op.words.take (min (s.stn i).wordsPerFrame op.words.length))) .tool
              (s.relayPlaced i op v)))
      ∧ (s.roster[i].releaseSettle ≠ 0 → startTool i (s.relayPlaced i op s.ports)
          = modSlot i (fun op => { op with phase := .settling }) (s.relayPlaced i op v)) := by
  have hrel : releaseAnswer i (s.relayPlaced i op s.ports) = .granted (decide (s.roster[i].releaseSettle = 0)) :=
    releaseAnswer_granted (p := p) hp hj (by simpa using hon) hf hh
  have hgrant : grantRelease i (.tool i) (s.relayPlaced i op s.ports)
      = s.relayPlaced i op (grantRelease i (.tool i) (s.relayPlaced i op s.ports)).ports := grantRelease_frame _ _ _
  obtain ⟨m, hm⟩ := grantRelease_port (s := s.relayPlaced i op s.ports) (i := i) (h := .tool i) (p := p) hp
  have hstart := startTool_write (i := i) (x := s.relayPlaced i op s.ports) (op := op) (by simp) hw
  rw [hrel] at hstart
  refine ⟨_, m, hm, fun h0 => ?_, fun h0 => ?_⟩
  · rw [decide_eq_true h0] at hstart
    rw [hstart, hgrant]
    simp only [sendToolWrite_first ha, relayPlaced_stn_self]
    rfl
  · rw [decide_eq_false h0] at hstart
    exact hstart.trans (congrArg (modSlot i _) hgrant)

/-- What a WRITE that is admitted has judged (R49). -/
def Admitted (s : State) (i : Station) (r : ToolWriteReq) (ws : List Word) (adjusted : Bool) (changes : List (Nat × Int)) :
    Prop :=
  (s.classOf i r.block = .free ∧ ws = r.words ∧ adjusted = false ∧ changes = [])
    ∨ (s.classOf i r.block = .tunable ∧ judge s.params i r.block r.offset r.words s.guardTime = .forward ws adjusted changes)

/-- Nothing refuses a WRITE to an ONLINE station in GUARDING (R47). -/
theorem writeRefusal_none (hs : s.stage = .guarding) (hon : (s.stn i).state = .online) (hf : (s.stn i).format ≠ .mixed)
    (hh : s.held i = false) (hc : s.coverPosture = false) (hslot : (s.stn i).slot = none) : writeRefusal s i = none := by
  simp [writeRefusal, hs, up_of_online hon, hon, hf, hh, hc, hslot]

/-- An admitted WRITE fills its station's slot (R49). -/
theorem takeToolWrite_admitted {ws : List Word} {adjusted : Bool} {changes : List (Nat × Int)}
    (hr : writeRefusal s i = none) (ha : Admitted s i r ws adjusted changes) :
    takeToolWrite e tag i r s = fillSlot i (newOp (s.engp e) e tag true r.block r.offset r.count ws
      (decide (s.classOf i r.block = .tunable)) adjusted changes) s := by
  unfold takeToolWrite
  simp only [hr]
  rcases ha with ⟨hc, rfl, rfl, rfl⟩ | ⟨hc, hj⟩
  · simp [hc]
  · simp [hc, hj]

/-- Settles O35. -/
theorem toolWriteAdmitted : Obligations.ToolWriteAdmitted := by
  intro e tag r s i p ws adjusted changes hp hr hi hb h1 hc ho hw hs hon hf hh hcov hslot hport hfault hholder admitted
  have hready := toolWrite_ready (tag := tag) hp hr (writeStationOf_eq_some hi hb h1 hc ho hw)
  have hnone := writeRefusal_none hs hon hf hh hcov hslot
  let op := newOp (s.engp e) e tag true r.block r.offset r.count ws (decide (s.classOf i r.block = .tunable)) adjusted
    changes
  have hop : op.port = e := rfl
  have hack : op.acked = 0 := rfl
  refine ⟨fun ha hlh hlw hlf => ?_, fun ha hocc => ?_, fun hcls hj => ?_⟩
  · let y := s.relayPlaced i op s.ports
    have hy : (s.slotted i op).heldBy i .tool = y := rfl
    have hex : ∀ t, startTool i y = t → t.occupied i → exec (.toolWrite e tag r) s = .next t := by
      intro t ht hto
      rw [hready, takeToolWrite_admitted hnone ha, fillSlot_idle ⟨hlh, hlw, hlf⟩ (by rw [hy, ht]; exact hto), hy, ht]
    by_cases hj : (s.port p).jumper = .none
    · obtain ⟨g1, g2, g3, g4, g5, -, g7, g8⟩ := asking_relay (s := s) (i := i) (op := op) hop s.ports
        (fun op => { op with phase := .writing, writeSent := true })
        (.write op.block op.offset (op.words.take (min (s.stn i).wordsPerFrame op.words.length)))
      exact ⟨_, _, hex _ (startTool_unmonitored rfl hack hport hj) (sendRequest_occupied _ _ _ _), g1, g2, g3, rfl, rfl, rfl,
        rfl, rfl, rfl, g4, fun _ => g5, fun hn => absurd hj hn, g7, g8⟩
    · obtain ⟨v, m, hm, hzero, hsettle⟩ := startTool_released (op := op) rfl hack hport hj hon hfault hholder
      by_cases h0 : s.roster[i].releaseSettle = 0
      · obtain ⟨g1, g2, g3, g4, g5, g6, g7, g8⟩ := asking_relay (s := s) (i := i) (op := op) hop v
          (fun op => { op with phase := .writing, writeSent := true })
          (.write op.block op.offset (op.words.take (min (s.stn i).wordsPerFrame op.words.length)))
        refine ⟨_, _, hex _ (hzero h0) (sendRequest_occupied _ _ _ _), g1, g2, g3, rfl, rfl, rfl, rfl, rfl, rfl, g4,
          fun hn => absurd hn hj, fun _ => ?_, g7, g8⟩
        rw [g6, hm]
        exact ⟨rfl, rfl, rfl, fun hpos => absurd hpos (by omega)⟩
      · obtain ⟨g1, g2, g3, g4, g5, g6, g7, g8⟩ := settling_relay (s := s) (i := i) (op := op) hop v
          (fun op => { op with phase := .settling })
        refine ⟨_, _, hex _ (hsettle h0) (.inl (by rw [g4]; exact nofun)), g1, g2, g3, rfl, rfl, rfl, rfl, rfl, rfl, g4,
          fun hn => absurd hn hj, fun _ => ?_, g7, g8⟩
        rw [g6, hm]
        exact ⟨rfl, rfl, rfl, fun _ => ⟨if_neg h0, g5.trans hlf⟩⟩
  · obtain ⟨g1, g2, g3, g4, g5, g6⟩ := waiting_tool (s := s) (i := i) hop
    refine ⟨_, _, ?_, g1, g2, g3, rfl, rfl, rfl, rfl, g4, g5, g6⟩
    rw [hready, takeToolWrite_admitted hnone ha, fillSlot_occupied hocc]
  · rw [hready]
    refine congrArg Host.Outcome.next ?_
    unfold takeToolWrite
    simp only [hnone, hcls, hj]

end Sys2Proof.Machine
end

section
/-! SUPPORT. Strikes, and the judgement of a whole write: which parameters it judges, what refuses it, and the words and
changes it gives. -/

namespace Sys2Proof.Machine

open Sys2Proof

variable {s : State} {i : Station} {e : EngId} {tag : Byte} {why : Policy}

/-! ### Strikes -/

/-- A refusal below the limit is one strike more (R106). -/
theorem refusePolicy_struck {o block : Nat} (h : (s.engp e).strikes + 1 < s.timing.strikeLimit) :
    refusePolicy e tag why o i block s
      = (post (.engineering e) (.refusal why i block) (sendTool e tag (.policy why o) s)).modEng e
          (fun p => p.struck s.timing.strikeWindow) := by
  refine if_neg (Nat.not_le.mpr ?_)
  simpa [sendTool, EngPort.struck] using h

/-- The strike that reaches the limit locks the port out (R107). -/
theorem refusePolicy_locked {o block : Nat} (h : s.timing.strikeLimit ≤ (s.engp e).strikes + 1) :
    refusePolicy e tag why o i block s
      = post (.engineering e) (.lockout s.timing.lockout why)
          ((post (.engineering e) (.refusal why i block) (sendTool e tag (.policy why o) s)).modEng e
            (fun p => (p.struck s.timing.strikeWindow).locked s.timing.lockout)) := by
  refine (if_pos ?_).trans (congrArg _ (modEng_modEng _ _ _ _))
  simpa [sendTool, EngPort.struck] using h

/-! ### The parameter of a word -/

section
variable {ps : List (Nat × Param)} {b o w : Nat} {ws : List Word} {now : Nat} {x y : Nat × Param}

/-- Parameter `x` is loaded and has the word at offset `w` of the block. -/
def OwnsWord (ps : List (Nat × Param)) (i : Station) (b : Nat) (x : Nat × Param) (w : Nat) : Prop :=
  x ∈ ps ∧ x.2.station = i ∧ x.2.block = b ∧ (x.2.offset = w ∨ (x.2.wide = true ∧ x.2.offset + 1 = w))

theorem ownsWord_iff : OwnsWord ps i b x w ↔ x ∈ ps ∧ x.2.covers i b w = true := by
  simp [OwnsWord, Param.covers, and_assoc]

theorem sharesWord_of_owns (hx : OwnsWord ps i b x w) (hy : OwnsWord ps i b y w) : x.2.sharesWord y.2 = true := by
  obtain ⟨-, hxs, hxb, hxw⟩ := hx
  obtain ⟨-, hys, hyb, hyw⟩ := hy
  have hreach : ∀ p : Param, (p.offset = w ∨ (p.wide = true ∧ p.offset + 1 = w)) → p.offset ≤ w ∧ w < p.offset + p.width := by
    intro p hp
    rcases hp with hp | ⟨ht, hp⟩
    · have hpos : 0 < p.width := by
        rw [Param.width]
        split <;> omega
      omega
    · have htwo : p.width = 2 := if_pos ht
      omega
  have h1 := hreach x.2 hxw
  have h2 := hreach y.2 hyw
  simp only [Param.sharesWord, Bool.and_eq_true, decide_eq_true_eq, hxs, hys, hxb, hyb, true_and]
  omega

/-- Loaded parameters that have a word in common are one (R53). -/
theorem owner_unique (hok : ParamsOk ps) (hx : OwnsWord ps i b x w) (hy : OwnsWord ps i b y w) : x = y := by
  by_contra hne
  have hsym : Std.Symm (fun a c : Nat × Param => a.2.sharesWord c.2 = false) :=
    ⟨fun a c h => (sharesWord_comm c.2 a.2).trans h⟩
  have hpair : ps.Pairwise (fun a c => a.2.sharesWord c.2 = false) := hok.1.imp fun h => h.2
  have hfalse := hpair.forall hx.1 hy.1 hne
  rw [sharesWord_of_owns hx hy] at hfalse
  cases hfalse

theorem index_ne (hok : ParamsOk ps) (hx : x ∈ ps) (hy : y ∈ ps) (hne : x ≠ y) : x.1 ≠ y.1 := by
  have hsym : Std.Symm (fun a c : Nat × Param => a.1 ≠ c.1) := ⟨fun _ _ h => Ne.symm h⟩
  have hpair : ps.Pairwise (fun a c => a.1 ≠ c.1) := hok.1.imp fun h => Nat.ne_of_lt h.1
  exact hpair.forall hx hy hne

theorem paramAt_eq_some (hok : ParamsOk ps) : paramAt ps i b w = some x ↔ OwnsWord ps i b x w := by
  constructor
  · intro h
    exact ownsWord_iff.mpr ⟨List.mem_of_find?_eq_some h, (List.find?_eq_some_iff_append.mp h).1⟩
  · intro h
    obtain ⟨y, hy⟩ : ∃ y, paramAt ps i b w = some y :=
      Option.isSome_iff_exists.mp (List.find?_isSome.mpr ⟨x, (ownsWord_iff.mp h).1, (ownsWord_iff.mp h).2⟩)
    have hyo : OwnsWord ps i b y w :=
      ownsWord_iff.mpr ⟨List.mem_of_find?_eq_some hy, (List.find?_eq_some_iff_append.mp hy).1⟩
    rw [hy, owner_unique hok hyo h]

theorem paramAt_eq_none : paramAt ps i b w = none ↔ ∀ x, ¬ OwnsWord ps i b x w := by
  rw [paramAt, List.find?_eq_none]
  exact ⟨fun h x hx => h x (ownsWord_iff.mp hx).1 (ownsWord_iff.mp hx).2,
    fun h x hx hc => h x (ownsWord_iff.mpr ⟨hx, hc⟩)⟩

/-! ### The lowest offset of a kind -/

theorem find_offsets_none {n : Nat} {f : Nat → Bool} (h : ∀ w, o ≤ w → w < o + n → f w = false) :
    (offsets o n).find? f = none := by
  refine List.find?_eq_none.mpr fun w hw => ?_
  obtain ⟨k, hk, rfl⟩ := List.mem_map.mp hw
  simp [h (o + k) (by omega) (by have := List.mem_range.mp hk; omega)]

theorem find_offsets_some {n : Nat} {f : Nat → Bool} (ho : o ≤ w) (hn : w < o + n) (hw : f w = true)
    (h : ∀ u, o ≤ u → u < w → f u = false) : (offsets o n).find? f = some w := by
  obtain ⟨d, rfl⟩ := Nat.exists_eq_add_of_le ho
  rw [offsets, List.find?_map]
  have hd : (List.range n).find? (f ∘ fun k => o + k) = some d := by
    rw [List.find?_range_eq_some]
    refine ⟨hw, List.mem_range.mpr (by omega), fun u hu => ?_⟩
    simp [h (o + u) (by omega) (by omega)]
  rw [hd]
  rfl

/-! ### The parameters judged -/

/-- The word at offset `w` is written and belongs to no loaded parameter (R56). -/
def BareWord (ps : List (Nat × Param)) (i : Station) (b o n w : Nat) : Prop :=
  (o ≤ w ∧ w < o + n) ∧ ∀ x, ¬ OwnsWord ps i b x w

/-- The word at offset `w` is written and belongs to a parameter of two words that is not wholly inside (R57). -/
def CutWord (ps : List (Nat × Param)) (i : Station) (b o n w : Nat) : Prop :=
  (o ≤ w ∧ w < o + n) ∧ ∃ x, OwnsWord ps i b x w ∧ x.2.wide = true ∧ (x.2.offset < o ∨ o + n ≤ x.2.offset + 1)

/-- The parameter's first word is written: it is judged (R58). -/
def JudgedParam (ps : List (Nat × Param)) (i : Station) (b o n : Nat) (x : Nat × Param) : Prop :=
  OwnsWord ps i b x x.2.offset ∧ o ≤ x.2.offset ∧ x.2.offset < o + n

/-- The verdict on a judged parameter. -/
def verdictOn (o : Nat) (ws : List Word) (now : Nat) (x : Nat × Param) : Verdict :=
  x.2.verdict (x.2.decode (ws.getD (x.2.offset - o) 0) (ws.getD (x.2.offset - o + 1) 0)) now

/-- The parameter judged with its verdict. -/
def judgedOf (o : Nat) (ws : List Word) (now : Nat) (x : Nat × Param) : Judged :=
  { index := x.1, param := x.2, verdict := verdictOn o ws now x }

/-- The parameter whose first word is the `k`th written, with its verdict. -/
def judgedAt (ps : List (Nat × Param)) (i : Station) (b o : Nat) (ws : List Word) (now k : Nat) : Option Judged :=
  match paramAt ps i b (o + k) with
  | some (idx, p) =>
    if p.offset = o + k then
      some { index := idx, param := p, verdict := p.verdict (p.decode (ws.getD k 0) (ws.getD (k + 1) 0)) now }
    else none
  | none => none

theorem judgedParams_eq : judgedParams ps i b o ws now = (List.range ws.length).filterMap (judgedAt ps i b o ws now) := rfl

theorem judgedAt_start (hok : ParamsOk ps) {k : Nat} (hx : OwnsWord ps i b x (o + k)) (ho : x.2.offset = o + k) :
    judgedAt ps i b o ws now k = some (judgedOf o ws now x) := by
  rw [judgedAt, (paramAt_eq_some hok).mpr hx]
  simp [judgedOf, verdictOn, ho]

theorem judgedAt_inner (hok : ParamsOk ps) {k : Nat} (hx : OwnsWord ps i b x (o + k)) (ho : x.2.offset ≠ o + k) :
    judgedAt ps i b o ws now k = none := by
  rw [judgedAt, (paramAt_eq_some hok).mpr hx]
  simp [ho]

theorem judgedAt_eq_some (hok : ParamsOk ps) {k : Nat} {j : Judged} :
    judgedAt ps i b o ws now k = some j ↔
      ∃ x, OwnsWord ps i b x x.2.offset ∧ x.2.offset = o + k ∧ j = judgedOf o ws now x := by
  constructor
  · intro h
    cases hp : paramAt ps i b (o + k) with
    | none => simp [judgedAt, hp] at h
    | some x =>
      have hx := (paramAt_eq_some hok).mp hp
      by_cases ho : x.2.offset = o + k
      · rw [judgedAt_start hok hx ho] at h
        exact ⟨x, ho ▸ hx, ho, (Option.some.inj h).symm⟩
      · rw [judgedAt_inner hok hx ho] at h
        cases h
  · rintro ⟨x, hx, ho, rfl⟩
    exact judgedAt_start hok (ho ▸ hx) ho

theorem mem_judgedParams (hok : ParamsOk ps) {j : Judged} : j ∈ judgedParams ps i b o ws now ↔
    ∃ x, JudgedParam ps i b o ws.length x ∧ j = judgedOf o ws now x := by
  rw [judgedParams_eq, List.mem_filterMap]
  constructor
  · rintro ⟨k, hk, hj⟩
    obtain ⟨x, hx, ho, rfl⟩ := (judgedAt_eq_some hok).mp hj
    have hlt := List.mem_range.mp hk
    exact ⟨x, ⟨hx, by omega, by omega⟩, rfl⟩
  · rintro ⟨x, ⟨hx, ho, hn⟩, rfl⟩
    exact ⟨x.2.offset - o, List.mem_range.mpr (by omega), (judgedAt_eq_some hok).mpr ⟨x, hx, by omega, rfl⟩⟩

/-- The parameters judged stand in the order of their offsets. -/
theorem judgedParams_sorted (hok : ParamsOk ps) :
    (judgedParams ps i b o ws now).Pairwise (fun j k => j.param.offset < k.param.offset) := by
  rw [judgedParams_eq, List.pairwise_filterMap]
  refine List.pairwise_lt_range.imp fun {m n} hlt j hj k hk => ?_
  obtain ⟨x, -, hxo, rfl⟩ := (judgedAt_eq_some hok).mp hj
  obtain ⟨y, -, hyo, rfl⟩ := (judgedAt_eq_some hok).mp hk
  show x.2.offset < y.2.offset
  omega

/-! ### The refusal of a judgement -/

theorem firstRefused_eq_some {js : List Judged} (hs : js.Pairwise (fun j k => j.param.offset < k.param.offset)) {j : Judged}
    (hj : j ∈ js) (hv : j.verdict = .refused why)
    (hlow : ∀ k ∈ js, k.param.offset < j.param.offset → ∀ other, k.verdict ≠ .refused other) :
    firstRefused js = some (why, j.param.offset) := by
  induction js with
  | nil => cases hj
  | cons k ks ih =>
    obtain ⟨hk, hks⟩ := List.pairwise_cons.mp hs
    rcases List.mem_cons.mp hj with rfl | hj
    · simp only [firstRefused, hv]
    · have hnot := hlow k (by simp) (hk j hj)
      have hrest := ih hks hj (fun m hm hlt => hlow m (by simp [hm]) hlt)
      rw [firstRefused]
      split
      · next p hp => exact absurd hp (hnot p)
      · exact hrest

theorem firstRefused_eq_none {js : List Judged} (h : ∀ j ∈ js, ∀ p, j.verdict ≠ .refused p) : firstRefused js = none := by
  induction js with
  | nil => rfl
  | cons k ks ih =>
    have hrest := ih (fun j hj => h j (by simp [hj]))
    rw [firstRefused]
    split
    · next p hp => exact absurd hp (h k (by simp) p)
    · exact hrest

/-! ### The words and the changes of a judgement -/

theorem acceptedWords_append (js ks : List Judged) : acceptedWords (js ++ ks) = acceptedWords js ++ acceptedWords ks := by
  induction js with
  | nil => rfl
  | cons j js ih => rw [List.cons_append, acceptedWords, acceptedWords, ih, List.append_assoc]

/-- The words accepted for the first `k` words written. -/
def acceptedUpTo (ps : List (Nat × Param)) (i : Station) (b o : Nat) (ws : List Word) (now k : Nat) : List Word :=
  acceptedWords ((List.range k).filterMap (judgedAt ps i b o ws now))

/-- The words a parameter takes at a judgement (R67). -/
def encodedOn (o : Nat) (ws : List Word) (now : Nat) (x : Nat × Param) : List Word :=
  x.2.encode ((verdictOn o ws now x).value x.2.current)

theorem acceptedUpTo_succ (k : Nat) : acceptedUpTo ps i b o ws now (k + 1)
    = acceptedUpTo ps i b o ws now k ++ acceptedWords (judgedAt ps i b o ws now k).toList := by
  rw [acceptedUpTo, List.range_succ, List.filterMap_append, acceptedWords_append]
  cases h : judgedAt ps i b o ws now k <;> simp [acceptedUpTo, h]

/-- The word before position `k` is the first of a judged parameter of two words. -/
def Straddles (ps : List (Nat × Param)) (i : Station) (b o k : Nat) : Prop :=
  ∃ x, OwnsWord ps i b x x.2.offset ∧ x.2.wide = true ∧ o ≤ x.2.offset ∧ x.2.offset + 1 = o + k

theorem ownsWord_first {x : Nat × Param} (h : OwnsWord ps i b x w) : OwnsWord ps i b x x.2.offset :=
  ⟨h.1, h.2.1, h.2.2.1, .inl rfl⟩

theorem ownsWord_second {x : Nat × Param} (h : OwnsWord ps i b x x.2.offset) (hw : x.2.wide = true) :
    OwnsWord ps i b x (x.2.offset + 1) := ⟨h.1, h.2.1, h.2.2.1, .inr ⟨hw, rfl⟩⟩

/-- Parameters whose words fill a write give as many words as it has, each parameter's behind those of the words before
it: up to position `k` there are `k`, and one more where a parameter of two words begins just before. -/
theorem length_acceptedUpTo (hok : ParamsOk ps) {n : Nat} (hbare : ∀ u, ¬ BareWord ps i b o n u)
    (hcut : ∀ u, ¬ CutWord ps i b o n u) (k : Nat) (hk : k ≤ n) :
    (Straddles ps i b o k → (acceptedUpTo ps i b o ws now k).length = k + 1)
    ∧ (¬ Straddles ps i b o k → (acceptedUpTo ps i b o ws now k).length = k) := by
  induction k with
  | zero =>
    refine ⟨fun ⟨x, _, _, ho, hx⟩ => by omega, fun _ => rfl⟩
  | succ k ih =>
    obtain ⟨hstr, hnot⟩ := ih (by omega)
    obtain ⟨x, hx⟩ : ∃ x, OwnsWord ps i b x (o + k) := by
      by_contra hno
      exact hbare (o + k) ⟨⟨by omega, by omega⟩, fun x hx => hno ⟨x, hx⟩⟩
    rw [acceptedUpTo_succ]
    by_cases hstart : x.2.offset = o + k
    · have hns : ¬ Straddles ps i b o k := by
        rintro ⟨y, hy, hyw, hyo, hyk⟩
        have hyx := owner_unique hok (hyk ▸ ownsWord_second hy hyw) hx
        subst hyx
        omega
      rw [judgedAt_start hok hx hstart, List.length_append, hnot hns]
      have hlen : (acceptedWords (some (judgedOf o ws now x)).toList).length = x.2.width := by
        simp [acceptedWords, judgedOf, length_encode]
      rw [hlen]
      refine ⟨fun ⟨y, hy, hyw, hyo, hyk⟩ => ?_, fun hno => ?_⟩
      · have hyx : y = x := owner_unique hok (w := o + k) (by rw [show o + k = y.2.offset by omega]; exact hy) hx
        subst hyx
        simp [Param.width, hyw]
      · have hnw : x.2.wide = false := by
          refine Bool.eq_false_iff.mpr fun hw => hno ⟨x, ownsWord_first hx, hw, by omega, by omega⟩
        simp [Param.width, hnw]
    · have hin : x.2.wide = true ∧ x.2.offset + 1 = o + k := hx.2.2.2.resolve_left hstart
      have hoff : o ≤ x.2.offset := by
        by_contra hlt
        exact hcut (o + k) ⟨⟨by omega, by omega⟩, x, hx, hin.1, .inl (by omega)⟩
      have hs : Straddles ps i b o k := ⟨x, ownsWord_first hx, hin.1, hoff, hin.2⟩
      rw [judgedAt_inner hok hx hstart, List.length_append, hstr hs]
      refine ⟨fun ⟨y, hy, hyw, hyo, hyk⟩ => ?_, fun _ => rfl⟩
      have hyx : y = x := owner_unique hok (w := o + k) (by rw [show o + k = y.2.offset by omega]; exact hy) hx
      subst hyx
      omega

theorem not_straddles_start (hok : ParamsOk ps) {x : Nat × Param} {k : Nat} (hx : OwnsWord ps i b x (o + k))
    (hstart : x.2.offset = o + k) : ¬ Straddles ps i b o k := by
  rintro ⟨y, hy, hyw, hyo, hyk⟩
  have hyx := owner_unique hok (hyk ▸ ownsWord_second hy hyw) hx
  subst hyx
  omega

theorem acceptedUpTo_add (k m : Nat) : ∃ rest, acceptedUpTo ps i b o ws now (k + m) = acceptedUpTo ps i b o ws now k ++ rest := by
  induction m with
  | zero => exact ⟨[], by simp⟩
  | succ m ih =>
    obtain ⟨rest, hrest⟩ := ih
    exact ⟨rest ++ acceptedWords (judgedAt ps i b o ws now (k + m)).toList, by
      rw [← Nat.add_assoc, acceptedUpTo_succ, hrest, List.append_assoc]⟩

theorem acceptedWords_judged : acceptedWords (judgedParams ps i b o ws now) = acceptedUpTo ps i b o ws now ws.length := rfl

/-- A write filled by whole parameters is answered with as many words as it has (R67). -/
theorem length_acceptedWords (hok : ParamsOk ps) (hbare : ∀ u, ¬ BareWord ps i b o ws.length u)
    (hcut : ∀ u, ¬ CutWord ps i b o ws.length u) :
    (acceptedWords (judgedParams ps i b o ws now)).length = ws.length := by
  rw [acceptedWords_judged]
  refine (length_acceptedUpTo hok hbare hcut ws.length (Nat.le_refl _)).2 ?_
  rintro ⟨x, hx, hw, ho, hn⟩
  exact hcut x.2.offset ⟨⟨ho, by omega⟩, x, hx, hw, .inr (by omega)⟩

/-- Each judged parameter's words encode its accepted value, or its current one (R67). -/
theorem acceptedWords_param (hok : ParamsOk ps) (hbare : ∀ u, ¬ BareWord ps i b o ws.length u)
    (hcut : ∀ u, ¬ CutWord ps i b o ws.length u) (hx : JudgedParam ps i b o ws.length x) :
    ((acceptedWords (judgedParams ps i b o ws now)).drop (x.2.offset - o)).take (if x.2.wide = true then 2 else 1)
      = encodedOn o ws now x := by
  obtain ⟨hown, ho, hn⟩ := hx
  obtain ⟨k, hk⟩ := Nat.exists_eq_add_of_le ho
  obtain ⟨m, hm⟩ : ∃ m, ws.length = k + 1 + m := Nat.exists_eq_add_of_le (by omega)
  have hx' : OwnsWord ps i b x (o + k) := hk ▸ hown
  have hlen : (acceptedUpTo ps i b o ws now k).length = k :=
    (length_acceptedUpTo hok hbare hcut k (by omega)).2 (not_straddles_start hok hx' hk)
  obtain ⟨rest, hrest⟩ := acceptedUpTo_add (ps := ps) (i := i) (b := b) (o := o) (ws := ws) (now := now) (k + 1) m
  have hone : acceptedWords (some (judgedOf o ws now x)).toList = encodedOn o ws now x := by
    simp [acceptedWords, judgedOf, encodedOn]
  have hwid : (if x.2.wide = true then 2 else 1) = (encodedOn o ws now x).length := by
    rw [encodedOn, length_encode]
    rfl
  have hdrop : x.2.offset - o = (acceptedUpTo ps i b o ws now k).length := by omega
  rw [acceptedWords_judged, hm, hrest, acceptedUpTo_succ, judgedAt_start hok hx' hk, hone, hwid, hdrop, List.append_assoc,
    List.drop_left, List.take_left]

/-- The change of one judged parameter, where its verdict moves it (R70). -/
def Judged.change (j : Judged) : Option (Nat × Int) :=
  if j.verdict.moves then some (j.index, j.verdict.value j.param.current) else none

theorem changeList_eq (js : List Judged) : changeList js = js.filterMap Judged.change := by
  induction js with
  | nil => rfl
  | cons j js ih =>
    rw [changeList, List.filterMap_cons]
    by_cases hm : j.verdict.moves = true <;> simp [Judged.change, hm, ih]

theorem change_eq_some {j : Judged} {k : Nat} {a : Int} :
    j.change = some (k, a) ↔ j.index = k ∧ (j.verdict = .pass a ∨ j.verdict = .clamped a) := by
  cases hv : j.verdict <;> simp [Judged.change, hv, Verdict.moves, Verdict.value]

theorem changeList_eq_nil {js : List Judged} : changeList js = [] ↔ (js.any fun j => j.verdict.moves) = false := by
  rw [changeList_eq, List.filterMap_eq_nil_iff, List.any_eq_false]
  refine forall₂_congr fun j _ => ?_
  by_cases hm : j.verdict.moves = true <;> simp [Judged.change, hm]

theorem mem_changeList (hok : ParamsOk ps) {k : Nat} {a : Int} :
    (k, a) ∈ changeList (judgedParams ps i b o ws now) ↔ ∃ p, JudgedParam ps i b o ws.length (k, p)
      ∧ (verdictOn o ws now (k, p) = .pass a ∨ verdictOn o ws now (k, p) = .clamped a) := by
  rw [changeList_eq, List.mem_filterMap]
  constructor
  · rintro ⟨j, hj, hc⟩
    obtain ⟨⟨k', p⟩, hx, rfl⟩ := (mem_judgedParams hok).mp hj
    obtain ⟨rfl, hv⟩ := change_eq_some.mp hc
    exact ⟨p, hx, hv⟩
  · rintro ⟨p, hx, hv⟩
    exact ⟨_, (mem_judgedParams hok).mpr ⟨(k, p), hx, rfl⟩, change_eq_some.mpr ⟨rfl, hv⟩⟩

/-- No parameter stands twice in a change list. -/
theorem changeList_pairwise (hok : ParamsOk ps) :
    (changeList (judgedParams ps i b o ws now)).Pairwise (fun c d => c.1 ≠ d.1) := by
  rw [changeList_eq, List.pairwise_filterMap]
  refine (judgedParams_sorted hok).imp_of_mem fun {j k} hj hk hlt c hc d hd => ?_
  obtain ⟨x, hx, rfl⟩ := (mem_judgedParams hok).mp hj
  obtain ⟨y, hy, rfl⟩ := (mem_judgedParams hok).mp hk
  obtain ⟨hci, -⟩ := change_eq_some.mp hc
  obtain ⟨hdi, -⟩ := change_eq_some.mp hd
  rw [← hci, ← hdi]
  refine index_ne hok hx.1.1 hy.1.1 ?_
  rintro rfl
  exact absurd hlt (Nat.lt_irrefl _)

/-! ### The judgement -/

theorem firstUnguarded_none (h : ∀ u, ¬ BareWord ps i b o ws.length u) : firstUnguarded ps i b o ws.length = none := by
  refine find_offsets_none fun w h1 h2 => ?_
  rw [Option.isNone_eq_false_iff, Option.isSome_iff_ne_none]
  exact fun hn => h w ⟨⟨h1, h2⟩, paramAt_eq_none.mp hn⟩

theorem firstUnguarded_some (hw : BareWord ps i b o ws.length w) (h : ∀ u, u < w → ¬ BareWord ps i b o ws.length u) :
    firstUnguarded ps i b o ws.length = some w := by
  obtain ⟨⟨h1, h2⟩, hno⟩ := hw
  refine find_offsets_some h1 h2 (by simp [paramAt_eq_none.mpr hno]) fun u hu hlt => ?_
  rw [Option.isNone_eq_false_iff, Option.isSome_iff_ne_none]
  exact fun hn => h u hlt ⟨⟨hu, by omega⟩, paramAt_eq_none.mp hn⟩

theorem splitBy_iff {p : Param} {n : Nat} : p.splitBy o n = true ↔ p.wide = true ∧ (p.offset < o ∨ o + n ≤ p.offset + 1) := by
  simp only [Param.splitBy, Bool.and_eq_true, Bool.not_eq_true', Bool.and_eq_false_iff, decide_eq_false_iff_not, Nat.not_le,
    Nat.not_lt]

/-- The test of R57 on one word. -/
theorem split_iff (hok : ParamsOk ps) {n : Nat} :
    (match paramAt ps i b w with
     | some (_, p) => p.splitBy o n
     | none => false) = true ↔ ∃ x, OwnsWord ps i b x w ∧ x.2.wide = true ∧ (x.2.offset < o ∨ o + n ≤ x.2.offset + 1) := by
  cases hp : paramAt ps i b w with
  | none => simpa using fun k p hx => absurd hx (paramAt_eq_none.mp hp (k, p))
  | some x =>
    have hx := (paramAt_eq_some hok).mp hp
    rw [show (match some x with | some (_, p) => Param.splitBy p o n | none => false) = x.2.splitBy o n from rfl, splitBy_iff]
    exact ⟨fun h => ⟨x, hx, h⟩, fun ⟨y, hy, h⟩ => owner_unique hok hy hx ▸ h⟩

theorem firstSplit_none (hok : ParamsOk ps) (h : ∀ u, ¬ CutWord ps i b o ws.length u) :
    firstSplit ps i b o ws.length = none :=
  find_offsets_none fun w h1 h2 => Bool.eq_false_iff.mpr fun hs => h w ⟨⟨h1, h2⟩, (split_iff hok).mp hs⟩

theorem firstSplit_some (hok : ParamsOk ps) (hw : CutWord ps i b o ws.length w)
    (h : ∀ u, u < w → ¬ CutWord ps i b o ws.length u) : firstSplit ps i b o ws.length = some w := by
  obtain ⟨⟨h1, h2⟩, hx⟩ := hw
  refine find_offsets_some h1 h2 ((split_iff hok).mpr hx) fun u hu hlt => Bool.eq_false_iff.mpr fun hs => ?_
  exact h u hlt ⟨⟨hu, by omega⟩, (split_iff hok).mp hs⟩

end

/-- Settles O37. -/
theorem policyRefusalStrikes : Obligations.PolicyRefusalStrikes := by
  refine ⟨?_, ?_⟩
  · intro e tag r s i why o hp hr hi hb h1 hc ho hw hs hon hf hh hcov hslot hcase
    dsimp only
    have hready := toolWrite_ready (tag := tag) hp hr (writeStationOf_eq_some hi hb h1 hc ho hw)
    have hnone := writeRefusal_none hs hon hf hh hcov hslot
    have hrefuse : takeToolWrite e tag i r s = refusePolicy e tag why o i r.block s := by
      unfold takeToolWrite
      simp only [hnone]
      rcases hcase with ⟨hcls, rfl, rfl⟩ | ⟨hcls, rfl, rfl⟩ | ⟨hcls, hj⟩
      · simp only [hcls]
      · simp only [hcls]
      · simp only [hcls, hj]
    rw [hready, hrefuse]
    exact ⟨fun hlt => congrArg _ (refusePolicy_struck hlt), fun hge => congrArg _ (refusePolicy_locked hge)⟩
  · intro ps i b o ws now hok owns inside bare cut judged verdict
    have hown : ∀ x w, owns x w = OwnsWord ps i b x w := fun _ _ => rfl
    refine ⟨fun w hw hlow => ?_, fun w hbare hw hlow => ?_, fun x why hclean hx hv hlow => ?_, fun hclean hall => ?_⟩
    · rw [judge, firstUnguarded_some hw hlow]
    · rw [judge, firstUnguarded_none hbare]
      simp only [firstSplit_some hok hw hlow]
    · have hrefused : firstRefused (judgedParams ps i b o ws now) = some (why, x.2.offset) :=
        firstRefused_eq_some (judgedParams_sorted hok) (j := judgedOf o ws now x)
          ((mem_judgedParams hok).mpr ⟨x, hx, rfl⟩) hv fun k hk hlt other => by
            obtain ⟨y, hy, rfl⟩ := (mem_judgedParams hok).mp hk
            exact hlow y other hy hlt
      rw [judge, firstUnguarded_none fun u => (hclean u).1]
      simp only [firstSplit_none hok fun u => (hclean u).2, hrefused]
    · have hbare := fun u => (hclean u).1
      have hcut := fun u => (hclean u).2
      have hrefused : firstRefused (judgedParams ps i b o ws now) = none := firstRefused_eq_none fun j hj p => by
        obtain ⟨y, hy, rfl⟩ := (mem_judgedParams hok).mp hj
        exact hall y p hy
      refine ⟨acceptedWords (judgedParams ps i b o ws now),
        (judgedParams ps i b o ws now).any (fun j => j.verdict.adjusts), changeList (judgedParams ps i b o ws now),
        length_acceptedWords hok hbare hcut, fun x hx => acceptedWords_param hok hbare hcut hx, ?_,
        fun k a => mem_changeList hok, changeList_pairwise hok, ?_⟩
      · rw [List.any_eq_true]
        constructor
        · rintro ⟨j, hj, hadj⟩
          obtain ⟨x, hx, rfl⟩ := (mem_judgedParams hok).mp hj
          cases hv : verdictOn o ws now x with
          | clamped a => exact ⟨x, a, hx, .inl hv⟩
          | held => exact ⟨x, 0, hx, .inr hv⟩
          | unchanged => simp [judgedOf, hv, Verdict.adjusts] at hadj
          | pass a => simp [judgedOf, hv, Verdict.adjusts] at hadj
          | refused p => simp [judgedOf, hv, Verdict.adjusts] at hadj
        · rintro ⟨x, a, hx, hv⟩
          refine ⟨_, (mem_judgedParams hok).mpr ⟨x, hx, rfl⟩, ?_⟩
          have hv' : verdictOn o ws now x = .clamped a ∨ verdictOn o ws now x = .held := hv
          rcases hv' with hv | hv <;> simp [judgedOf, hv, Verdict.adjusts]
      · rw [judge, firstUnguarded_none hbare]
        simp only [firstSplit_none hok hcut, hrefused]
        by_cases hc : changeList (judgedParams ps i b o ws now) = []
        · simp [hc, changeList_eq_nil.mp hc]
        · have hmoves : ((judgedParams ps i b o ws now).any fun j => j.verdict.moves) = true := by
            rw [← Bool.not_eq_false]
            exact fun hn => hc (changeList_eq_nil.mpr hn)
          simp [hc, hmoves]

end Sys2Proof.Machine
end

section
/-! SUPPORT. Bring-up: the replies to IDENT, SET RATE and ECHO of a station that is not yet up. -/

namespace Sys2Proof.Machine

open Sys2Proof

variable {s t x : State} {i j : Station} {u : LinkUser} {seq : Byte} {q : StationRequest} {p : Port}

/-! ### States alike but for a station and the inhibit ports -/

/-- Alike but for a station, with the inhibit ports set aside. -/
def SameButPorts (i : Station) (s t : State) : Prop := SameBut i s { t with ports := s.ports }

theorem SameBut.toPorts (h : SameBut i s t) : SameButPorts i s t :=
  ⟨(congrArg (fun y : State => { y with ports := s.ports }) h.1 :), h.2⟩

theorem SameButPorts.trans (h1 : SameButPorts i s t) (h2 : SameButPorts i t x) : SameButPorts i s x := by
  obtain ⟨he1, hj1⟩ := h1
  obtain ⟨he2, hj2⟩ := h2
  refine ⟨?_, fun j hj => ⟨(hj2 j hj).1.trans (hj1 j hj).1, (hj2 j hj).2.trans (hj1 j hj).2⟩⟩
  exact (congrArg (fun y : State => { y with stations := s.stations, links := s.links, events := s.events, ports := s.ports })
    he2 :).trans he1

theorem sameButPorts_setPorts (i : Station) (v : Vector InhibitPort 8) (s : State) : SameButPorts i s (s.setPorts v) :=
  ⟨rfl, fun _ _ => ⟨rfl, rfl⟩⟩

theorem sameButPorts_setStState (i : Station) (y : StState) (s : State) : SameButPorts i s (setStState i y s) := by
  rw [setStState_frame]
  exact (sameBut_modStn i _ s).toPorts.trans (sameButPorts_setPorts i _ _)

/-! ### Sweeps requested -/

theorem requestSweep_frame (i : Station) (s : State) : requestSweep i s = s.setSched (requestSweep i s).sched := by
  unfold requestSweep
  split <;> rfl

@[simp] theorem requestSweep_stn : (requestSweep i s).stn j = s.stn j := by rw [requestSweep_frame, State.setSched_stn]
@[simp] theorem requestSweep_link : (requestSweep i s).link j = s.link j := by rw [requestSweep_frame, State.setSched_link]
@[simp] theorem requestSweep_events : (requestSweep i s).events = s.events := by
  rw [requestSweep_frame, State.setSched_events]
@[simp] theorem requestSweep_guardTime : (requestSweep i s).guardTime = s.guardTime := by
  rw [requestSweep_frame, State.setSched_guardTime]
@[simp] theorem requestSweep_port : (requestSweep i s).port p = s.port p := by
  rw [requestSweep_frame, State.setSched_port]

/-! ### The ends of a transaction below ONLINE -/

@[simp] theorem landed_link_self : (s.landed i).link i = { s.link i with inFlight := none } := by simp [State.landed]
@[simp] theorem landed_stn : (s.landed i).stn j = s.stn j := rfl
@[simp] theorem landed_portOf : (s.landed i).portOf j = s.portOf j := rfl
@[simp] theorem landed_port : (s.landed i).port p = s.port p := rfl
@[simp] theorem landed_events : (s.landed i).events = s.events := rfl
@[simp] theorem landed_roster : (s.landed i).roster = s.roster := rfl
@[simp] theorem landed_guardTime : (s.landed i).guardTime = s.guardTime := rfl

theorem sameBut_landed (i : Station) (s : State) : SameBut i s (s.landed i) := sameBut_modLink i _ s

/-- A request of bring-up or training: it neither writes words nor asks for STATE. -/
def StationRequest.ofBringUp : StationRequest → Bool
  | .ident => true
  | .setRate _ => true
  | .echo => true
  | _ => false

theorem linkEffects_bringUp (hq : q.ofBringUp = true) (r : TxResult) (s : State) : linkEffects i q r s = s := by
  cases q <;> first | rfl | cases hq

/-- A reply taken from a station that is not up reaches bring-up. -/
theorem exec_of_reply_down {c : Instr} {r : StationReply} (hc : exec c s = .next (stationReply i seq r s))
    (ha : Alone s i seq q u) (hup : s.up i = false) (hans : answers q r = true) (hw : wellFormedReply q r = true)
    (hq : q.ofBringUp = true) : exec c s = .next (ownerResult i u q (replyResult r) (s.landed i)) := by
  obtain ⟨hp, -, -, ms, hf⟩ := ha
  rw [hc, stationReply_taken hp hf rfl hans hw, endTransaction_down hup (linkEffects_bringUp hq _ _) rfl]

theorem exec_timeout_down (ha : Alone s i seq q u) (hup : s.up i = false) (hq : q.ofBringUp = true) :
    exec (.replyTimeout i) s = .next (ownerResult i u q .noReply (s.landed i)) := by
  obtain ⟨hp, -, -, ms, hf⟩ := ha
  refine congrArg Host.Outcome.next ?_
  rw [timeoutExpiry_inFlight hp hf, endTransaction_down hup (linkEffects_bringUp hq _ _) rfl]

theorem up_of_down (h : (s.stn i).state = .down) : s.up i = false := up_false (by simp [h]) (by simp [h])

theorem up_of_training (h : (s.stn i).state = .training) : s.up i = false := up_false (by simp [h]) (by simp [h])

/-! ### The first poll -/

/-- A presence poll placed on an idle link of a station that is up goes out at once (R15). -/
theorem placePresence_idle (hup : s.up i = true) (hi : s.idleLink i) :
    placePresence i s = s.asks i .state .presence := by
  obtain ⟨hh, hw, hf⟩ := hi
  have hne : s.engaged i .presence = false := by simp [State.engaged, hh, hw]
  rw [placePresence, if_pos ⟨hup, by simp [hne]⟩, place_idle (u := .presence) ⟨hh, hw, hf⟩ (sendRequest_occupied _ _ _ _)]
  rfl

/-! ### IDENT -/

/-- The record after an IDENT REPLY (R11). -/
def StationRec.identified (mk md fw : Word) (sn : BitVec 32) (hi wf : Byte) (r : StationRec) : StationRec :=
  { r with maker := some mk, model := some md, firmware := some fw, serial := some sn, highest := some hi.toNat,
           wordsPerFrame := min 64 wf.toNat }

/-- A station quarantined from DOWN, its first poll not yet placed (R11, R21). -/
def State.quarantinedDown (s : State) (i : Station) (why : QReason) : State :=
  post (.station i) (.quarantined why)
    ((setStState i .quarantined (s.modStn i (fun r => { r with reason := some why, uncertain := true, rate := 0 }))).modLink i
      (fun l => { l with holder := none, identTimer := none, pollTimer := none }))

@[simp] theorem quarantinedDown_stn_self {why : QReason} : (s.quarantinedDown i why).stn i =
    { s.stn i with state := .quarantined, reason := some why, uncertain := true, rate := 0 } := by
  simp [State.quarantinedDown]

@[simp] theorem quarantinedDown_link_self {why : QReason} : (s.quarantinedDown i why).link i =
    { s.link i with holder := none, identTimer := none, pollTimer := none } := by
  simp [State.quarantinedDown]

@[simp] theorem quarantinedDown_roster {why : QReason} : (s.quarantinedDown i why).roster = s.roster := by
  simp [State.quarantinedDown]

theorem quarantinedDown_events {why : QReason} : (s.quarantinedDown i why).events
    = postEvent s.guardTime (.station i) (.quarantined why) s.events := by
  rw [State.quarantinedDown, post_events, State.modLink_events, State.modLink_guardTime, setStState_events,
    setStState_guardTime]
  rfl

/-- A port in FAULT stays there when its station's state changes (R30). -/
theorem setStState_fault {y : StState} (hp : s.portOf i = some p) (hf : (s.port p).monitor = .fault) :
    ((setStState i y s).port p).monitor = .fault := by
  rw [setStState_port hp]
  simp [monitorNext, hf]

theorem quarantinedDown_fault {why : QReason} (hp : s.portOf i = some p) (hf : (s.port p).monitor = .fault) :
    ((s.quarantinedDown i why).port p).monitor = .fault := by
  rw [State.quarantinedDown, post_port, State.modLink_port]
  refine setStState_fault ?_ ?_
  · rwa [State.modStn_portOf]
  · rwa [State.modStn_port]

@[simp] theorem asks_events : (s.asks i q u).events = s.events := rfl
@[simp] theorem asks_port : (s.asks i q u).port p = s.port p := rfl

theorem quarantineDown_eq {why : QReason} (hw : (s.link i).waiters = []) (hf : (s.link i).inFlight = none) :
    quarantineDown i why s = (s.quarantinedDown i why).asks i .state .presence :=
  placePresence_idle (s := s.quarantinedDown i why) (up_of_quarantined (by simp))
    ⟨by simp, by simp [hw], by simp [hf]⟩

theorem sameBut_quarantinedDown (i : Station) (why : QReason) (s : State) : SameButPorts i s (s.quarantinedDown i why) := by
  have h1 := (sameBut_modStn i (fun r => { r with reason := some why, uncertain := true, rate := 0 }) s).toPorts
  have h2 := h1.trans (sameButPorts_setStState i .quarantined _)
  exact (h2.trans (sameBut_modLink i _ _).toPorts).trans (sameBut_post i _ _ _).toPorts

theorem portFault_iff : s.portFault i = true ↔ ∃ p, s.portOf i = some p ∧ (s.port p).monitor = .fault := by
  unfold State.portFault
  cases s.portOf i <;> simp

theorem getD_eq_iff {α : Type} {o : Option α} {a : α} : o.getD a = a ↔ ∀ x, o = some x → x = a := by
  cases o <;> simp

theorem identityMatches_iff {e : RosterEntry} {mk md : Word} {sn : BitVec 32} : identityMatches e mk md sn = true ↔
    (∀ x, e.maker = some x → x = mk) ∧ (∀ x, e.model = some x → x = md) ∧ ∀ x, e.serial = some x → x = sn := by
  simp only [identityMatches, Bool.and_eq_true, decide_eq_true_eq, getD_eq_iff, and_assoc]

/-- The first request of a training step. -/
def trainRequest (rate : Nat) : StationRequest := if rate = 0 then .echo else .setRate rate

theorem trainStep_eq (i : Station) (first rate : Nat) (s : State) : ∃ ph, trainStep i first rate s =
    sendRequest i (trainRequest rate) .bringUp (s.modLink i (fun l =>
      { l with training := some { first := first, rate := rate, phase := ph } })) := by
  refine ⟨if 0 < rate then .setRate else .echo 0, ?_⟩
  cases rate with
  | zero => rfl
  | succ n => rfl

/-- What an IDENT REPLY leaves of a station with an identity the roster expects. -/
theorem trainStep_down (i : Station) (first rate : Nat) (y : State) :
    let t := trainStep i first rate (setStState i .training y)
    t.stn i = { y.stn i with state := .training, nextSeq := (y.stn i).nextSeq + 1#8 } ∧ t.events = y.events
      ∧ (t.link i).inFlight = some { seq := (y.stn i).nextSeq, request := trainRequest rate, owner := some .bringUp,
                                     timeout := y.roster[i].replyTimeout }
      ∧ (∃ ph, (t.link i).training = some { first := first, rate := rate, phase := ph })
      ∧ SameButPorts i y t := by
  obtain ⟨ph, hstep⟩ := trainStep_eq i first rate (setStState i .training y)
  dsimp only
  rw [hstep]
  refine ⟨by simp, by simp, ?_, ⟨ph, by simp⟩, ?_⟩
  · simp [State.sending]
  · have h1 := sameBut_modLink i (fun l => { l with training := some { first := first, rate := rate, phase := ph } })
      (setStState i .training y)
    exact (sameButPorts_setStState i .training y).trans (h1.trans (sameBut_sendRequest i (trainRequest rate) .bringUp _)).toPorts

/-- What it leaves of a station that is quarantined. -/
theorem quarantineDown_down {why : QReason} {y : State} (hw : (y.link i).waiters = []) (hf : (y.link i).inFlight = none) :
    let t := quarantineDown i why y
    t.stn i = { y.stn i with
        state := .quarantined, reason := some why, uncertain := true, rate := 0, nextSeq := (y.stn i).nextSeq + 1#8 }
      ∧ t.events = postEvent y.guardTime (.station i) (.quarantined why) y.events
      ∧ (t.link i).holder = some .presence
      ∧ (t.link i).inFlight = some { seq := (y.stn i).nextSeq, request := .state, owner := some .presence,
                                     timeout := y.roster[i].replyTimeout }
      ∧ (∀ p, y.portOf i = some p → (y.port p).monitor = .fault → (t.port p).monitor = .fault)
      ∧ SameButPorts i y t := by
  dsimp only
  rw [quarantineDown_eq hw hf]
  refine ⟨?_, ?_, ?_, ?_, fun p hp hpf => ?_, ?_⟩
  · rw [asks_stn_self, quarantinedDown_stn_self]
  · rw [asks_events, quarantinedDown_events]
  · rw [asks_link_self]
  · simp [State.sending]
  · rw [asks_port]
    exact quarantinedDown_fault hp hpf
  · exact (sameBut_quarantinedDown i why y).trans (sameBut_asks i .state .presence _).toPorts

/-- Settles O40. -/
theorem identReplyTaken : Obligations.IdentReplyTaken := by
  intro i seq mk md fw sn hi wf s ha hdown htr hwf rate first sent fault expected
  have hex := exec_of_reply_down (c := .identReply i seq mk md fw sn hi wf) (r := .identReply mk md fw sn hi wf) rfl ha
    (up_of_down hdown) rfl (by simpa [wellFormedReply] using hwf) rfl
  have hres : ownerResult i .bringUp .ident (replyResult (.identReply mk md fw sn hi wf)) (s.landed i)
      = identTaken i mk md fw sn hi wf (s.landed i) := by
    simp only [ownerResult, bringUpResult, landed_stn, hdown, replyResult]
  rw [hres] at hex
  obtain ⟨y, hy⟩ : ∃ y, y = (s.landed i).modStn i (StationRec.identified mk md fw sn hi wf) := ⟨_, rfl⟩
  have hsame : SameButPorts i s y := by
    rw [hy]
    exact ((sameBut_landed i s).trans (sameBut_modStn i _ _)).toPorts
  have hstn : y.stn i = StationRec.identified mk md fw sn hi wf (s.stn i) := by simp [hy]
  have hlink : y.link i = { s.link i with inFlight := none } := by simp [hy]
  have hev : y.events = s.events := by rw [hy]; rfl
  have htime : y.guardTime = s.guardTime := by rw [hy]; rfl
  have hroster : y.roster = s.roster := by rw [hy]; rfl
  have hmap : ∀ j, y.portOf j = s.portOf j := fun j => by rw [hy]; rfl
  have hport : ∀ p, y.port p = s.port p := fun p => by rw [hy]; rfl
  have hfault : y.portFault i = true ↔ fault := by
    rw [portFault_iff]
    simp only [hmap, hport, fault]
  have hmatch : identityMatches s.roster[i] mk md sn = true ↔ expected := identityMatches_iff
  have htaken : identTaken i mk md fw sn hi wf (s.landed i) = if y.portFault i then quarantineDown i .inhibit y
      else if identityMatches s.roster[i] mk md sn then trainStep i rate rate (setStState i .training y)
      else quarantineDown i .identity y := by
    rw [hy]
    rfl
  have quarantines : ∀ why : QReason, identTaken i mk md fw sn hi wf (s.landed i) = quarantineDown i why y →
      ∃ t, exec (.identReply i seq mk md fw sn hi wf) s = .next t
      ∧ t.stn i = { StationRec.identified mk md fw sn hi wf (s.stn i) with
          state := .quarantined, reason := some why, uncertain := true, rate := 0, nextSeq := (s.stn i).nextSeq + 1#8 }
      ∧ t.events = postEvent s.guardTime (.station i) (.quarantined why) s.events
      ∧ (t.link i).holder = some .presence ∧ (t.link i).inFlight = some (sent .state .presence)
      ∧ (∀ p : Port, s.portOf i = some p → (s.port p).monitor = .fault → (t.port p).monitor = .fault)
      ∧ SameBut i s { t with ports := s.ports } := by
    intro why heq
    obtain ⟨h1, h2, h3, h4, h5, h6⟩ := quarantineDown_down (i := i) (why := why) (y := y) (by simp [hlink, ha.waiters])
      (by simp [hlink])
    rw [hstn] at h1 h4
    rw [htime, hev] at h2
    rw [hroster] at h4
    simp only [hmap, hport] at h5
    exact ⟨_, hex.trans (congrArg _ heq), h1, h2, h3, h4, h5, hsame.trans h6⟩
  have trains : ¬ fault → expected → ∃ t, exec (.identReply i seq mk md fw sn hi wf) s = .next t
      ∧ t.stn i = { StationRec.identified mk md fw sn hi wf (s.stn i) with
          state := .training, nextSeq := (s.stn i).nextSeq + 1#8 }
      ∧ t.events = s.events ∧ (t.link i).inFlight = some (sent first .bringUp)
      ∧ (∃ ph, (t.link i).training = some { first := rate, rate := rate, phase := ph })
      ∧ SameBut i s { t with ports := s.ports } := by
    intro hf he
    obtain ⟨h1, h2, h3, h4, h5⟩ := trainStep_down i rate rate y
    rw [hstn] at h1 h3
    rw [hroster] at h3
    refine ⟨_, hex.trans (congrArg _ (htaken.trans ((if_neg fun h => hf (hfault.mp h)).trans (if_pos (hmatch.mpr he))))), h1,
      h2.trans hev, h3, h4, hsame.trans h5⟩
  by_cases hf : fault
  · obtain ⟨t, ht, h1, h2, h3, h4, h5, h6⟩ := quarantines .inhibit (htaken.trans (if_pos (hfault.mpr hf)))
    refine ⟨t, ht, ?_⟩
    rw [h1]
    refine ⟨rfl, rfl, rfl, rfl, rfl, rfl, h6, fun hn => absurd hf hn, fun why hwhy => ?_, h5⟩
    obtain rfl := hwhy.elim (fun h => h.2) (fun h => absurd hf h.1)
    exact ⟨rfl, rfl, rfl, h2, h3, h4⟩
  · have hno : ¬ y.portFault i = true := fun h => hf (hfault.mp h)
    by_cases he : expected
    · obtain ⟨t, ht, h1, h2, h3, h4, h5⟩ := trains hf he
      refine ⟨t, ht, ?_⟩
      rw [h1]
      exact ⟨rfl, rfl, rfl, rfl, rfl, rfl, h5, fun _ _ => ⟨rfl, h2, h3, h4⟩,
        fun why hwhy => absurd hwhy fun h => h.elim (fun h => hf h.1) (fun h => h.2.1 he),
        fun p hp hpf => absurd ⟨p, hp, hpf⟩ hf⟩
    · obtain ⟨t, ht, h1, h2, h3, h4, h5, h6⟩ :=
        quarantines .identity (htaken.trans ((if_neg hno).trans (if_neg fun h => he (hmatch.mp h))))
      refine ⟨t, ht, ?_⟩
      rw [h1]
      refine ⟨rfl, rfl, rfl, rfl, rfl, rfl, h6, fun _ h => absurd h he, fun why hwhy => ?_, h5⟩
      obtain rfl := hwhy.elim (fun h => absurd h.1 hf) (fun h => h.2.2)
      exact ⟨rfl, rfl, rfl, h2, h3, h4⟩

end Sys2Proof.Machine
end

section
/-! SUPPORT. Training: the replies to SET RATE and ECHO, and the steps that fail. -/

namespace Sys2Proof.Machine

open Sys2Proof

variable {s t x : State} {i j : Station} {u : LinkUser} {seq : Byte} {q : StationRequest} {p : Port} {tr : Training}

/-- A training with another phase. -/
def LinkRec.trains (tr : Training) (l : LinkRec) : LinkRec := { l with training := some tr }

/-- What bring-up leaves that sends its next ECHO. -/
theorem echo_sent (f : StationRec → StationRec) (tr : Training) (hf : ∀ r, (f r).nextSeq = r.nextSeq) :
    let t := sendRequest i .echo .bringUp (((s.landed i).modStn i f).modLink i (LinkRec.trains tr))
    t.stn i = { f (s.stn i) with nextSeq := (s.stn i).nextSeq + 1#8 } ∧ (t.link i).training = some tr
      ∧ (t.link i).inFlight = some
        { seq := (s.stn i).nextSeq, request := .echo, owner := some .bringUp, timeout := s.roster[i].replyTimeout }
      ∧ SameBut i s t ∧ t.events = s.events := by
  refine ⟨?_, ?_, ?_, ?_, ?_⟩
  · simp [hf]
  · simp [LinkRec.trains]
  · simp [State.sending, hf]
  · have h1 := (sameBut_landed i s).trans (sameBut_modStn i f _)
    exact (h1.trans (sameBut_modLink i (LinkRec.trains tr) _)).trans (sameBut_sendRequest i .echo .bringUp _)
  · simp

theorem bringUpResult_training {r : TxResult} (hst : (s.stn i).state = .training) (ht : (s.link i).training = some tr) :
    bringUpResult i r s = match tr.phase, r with
      | .setRate, .reply .ack =>
        sendRequest i .echo .bringUp ((setRate i tr.rate s).modLink i (fun l =>
          { l with training := some { tr with phase := .echo 0 } }))
      | .echo n, .reply (.echoReply bytes) =>
        if bytes = echoPattern then
          if n + 1 < 3 then
            sendRequest i .echo .bringUp (s.modLink i (fun l =>
              { l with training := some { tr with phase := .echo (n + 1) } }))
          else trainDone i tr s
        else trainFailed i tr s
      | _, _ => trainFailed i tr s := by
  simp only [bringUpResult, hst, ht] <;> rfl

/-! ### Training done -/

/-- A station that has been trained, its first poll not yet placed (R14). -/
def State.trained (s : State) (i : Station) (tr : Training) : State :=
  (setStState i .online (s.modStn i (fun r => { r with rate := tr.rate, missed := 0, uncertain := true }))).modLink i
    (fun l => { l with holder := none, training := none, pollTimer := none })

@[simp] theorem trained_stn_self : (s.trained i tr).stn i =
    { s.stn i with state := .online, rate := tr.rate, missed := 0, uncertain := true } := by simp [State.trained]

@[simp] theorem trained_link_self : (s.trained i tr).link i =
    { s.link i with holder := none, training := none, pollTimer := none } := by simp [State.trained]

@[simp] theorem trained_events : (s.trained i tr).events = s.events := by simp [State.trained]
@[simp] theorem trained_guardTime : (s.trained i tr).guardTime = s.guardTime := by simp [State.trained]
@[simp] theorem trained_roster : (s.trained i tr).roster = s.roster := by simp [State.trained]

theorem sameButPorts_trained (i : Station) (tr : Training) (s : State) : SameButPorts i s (s.trained i tr) := by
  have h1 := (sameBut_modStn i (fun r => { r with rate := tr.rate, missed := 0, uncertain := true }) s).toPorts
  exact (h1.trans (sameButPorts_setStState i .online _)).trans (sameBut_modLink i _ _).toPorts

@[simp] theorem asks_guardTime : (s.asks i q u).guardTime = s.guardTime := rfl

theorem trainDone_eq (hw : (s.link i).waiters = []) (hf : (s.link i).inFlight = none) :
    trainDone i tr s = post (.station i) (.linkUp tr.rate (decide (tr.rate < tr.first)))
      (requestSweep i ((s.trained i tr).asks i .state .presence)) := by
  have hplace := placePresence_idle (s := s.trained i tr) (i := i) (up_of_online (by simp)) ⟨by simp, by simp [hw], by simp [hf]⟩
  rw [← hplace]
  rfl

/-- Alike but for a station and the inhibit ports, the scheduler set aside too. -/
theorem SameButPorts.withSched {v : Scheduler} (h : SameButPorts i s t) :
    SameBut i s { t.setSched v with ports := s.ports, sched := s.sched } :=
  ⟨(congrArg (fun y : State => { y with sched := s.sched }) h.1 :), h.2⟩

/-! ### Training failed -/

/-- A training step that fails above rate 0 pauses (R13). -/
theorem trainFailed_pause (h : 0 < tr.rate) : trainFailed i tr s =
    (setRate i 0 s).modLink i (LinkRec.trains { tr with phase := .pause Config.trainingPause }) := if_pos h

/-- One that fails at rate 0 leaves the station in DOWN (R13). -/
theorem trainFailed_down (h : tr.rate = 0) : trainFailed i tr s = startBringUp i (setStState i .down (setRate i 0 s)) :=
  if_neg (by omega)

@[simp] theorem startBringUp_stn : (startBringUp i s).stn j = s.stn j := rfl
@[simp] theorem startBringUp_events : (startBringUp i s).events = s.events := rfl
@[simp] theorem startBringUp_link_self : (startBringUp i s).link i =
    { s.link i with holder := some .bringUp, waiters := [], identTimer := some Config.identWait, training := none,
                    pollTimer := none } := by simp [startBringUp]

@[simp] theorem setRate_stn_self (rate : Nat) : (setRate i rate s).stn i = { s.stn i with rate := rate } := by
  simp [setRate]
@[simp] theorem setRate_link (rate : Nat) : (setRate i rate s).link j = s.link j := rfl
@[simp] theorem setRate_events (rate : Nat) : (setRate i rate s).events = s.events := rfl
@[simp] theorem setRate_ports (rate : Nat) : (setRate i rate s).ports = s.ports := rfl

theorem sameBut_setRate (i : Station) (rate : Nat) (s : State) : SameBut i s (setRate i rate s) := sameBut_modStn i _ s

/-- What a training step that fails leaves (R13). -/
theorem trainFailed_landed (i : Station) (tr : Training) (s : State) :
    let t := trainFailed i tr (s.landed i)
    (t.link i).inFlight = none ∧ t.events = s.events ∧ SameBut i s { t with ports := s.ports }
      ∧ (0 < tr.rate → t.stn i = { s.stn i with rate := 0 } ∧ t.ports = s.ports
          ∧ (t.link i).training = some { tr with phase := .pause 1200 })
      ∧ (tr.rate = 0 → t.stn i = { s.stn i with state := .down, rate := 0 } ∧ (t.link i).training = none
          ∧ (t.link i).holder = some .bringUp ∧ (t.link i).identTimer = some 1000) := by
  by_cases h : 0 < tr.rate
  · dsimp only
    rw [trainFailed_pause h]
    refine ⟨by simp [LinkRec.trains], by simp, ?_, fun _ => ⟨by simp, rfl, by simp [LinkRec.trains, Config.trainingPause]⟩,
      fun h0 => by omega⟩
    exact (((sameBut_landed i s).trans (sameBut_setRate i 0 _)).trans (sameBut_modLink i _ _)).toPorts
  · have h0 : tr.rate = 0 := by omega
    dsimp only
    rw [trainFailed_down h0]
    refine ⟨by simp, by simp, ?_, fun hpos => absurd hpos h, fun _ => ⟨by simp, by simp, by simp, by simp [Config.identWait]⟩⟩
    have h1 := ((sameBut_landed i s).trans (sameBut_setRate i 0 _)).toPorts
    exact (h1.trans (sameButPorts_setStState i .down _)).trans (sameBut_modLink i _ _).toPorts

/-- Settles O41. -/
theorem trainingReplies : Obligations.TrainingReplies := by
  refine ⟨?_, ?_, ?_⟩
  · intro i seq first rate s ha hst htr
    have hex := exec_of_reply_down (c := .setRateAck i seq) (r := .ack) rfl ha (up_of_training hst) rfl rfl rfl
    have hres := bringUpResult_training (s := s.landed i) (i := i) (r := .reply .ack) hst
      (tr := { first := first, rate := rate, phase := .setRate }) (by simp [htr])
    obtain ⟨h1, h2, h3, h4, h5⟩ := echo_sent (s := s) (i := i) (fun r => { r with rate := rate })
      { first := first, rate := rate, phase := .echo 0 } (fun _ => rfl)
    exact ⟨_, hex.trans (congrArg _ hres), h1, h2, h3, h4, h5⟩
  · intro i seq first rate n s ha hst htr
    have hex := exec_of_reply_down (c := .echoReply i seq echoPattern) (r := .echoReply echoPattern) rfl ha
      (up_of_training hst) rfl (by rfl) rfl
    have hres := bringUpResult_training (s := s.landed i) (i := i) (r := .reply (.echoReply echoPattern)) hst
      (tr := { first := first, rate := rate, phase := .echo n }) (by simp [htr])
    refine ⟨fun hn => ?_, fun hn => ?_⟩
    · simp only [if_true, if_pos (show n + 1 < 3 by omega)] at hres
      obtain ⟨h1, h2, h3, h4, h5⟩ := echo_sent (s := s) (i := i) id { first := first, rate := rate, phase := .echo (n + 1) }
        (fun _ => rfl)
      rw [modStn_id rfl] at h1 h2 h3 h4 h5
      exact ⟨_, hex.trans (congrArg _ hres), h1, h2, h3, h4, h5⟩
    · subst hn
      have hdone := trainDone_eq (s := s.landed i) (i := i) (tr := { first := first, rate := rate, phase := .echo 2 })
        (by simp [ha.waiters]) (by simp)
      refine ⟨_, hex.trans (congrArg _ (hres.trans hdone)), ?_, ?_, ?_, ?_, ?_, ?_⟩
      · simp
      · simp
      · simp
      · simp [State.sending]
      · rw [post]
        simp
      · rw [requestSweep_frame]
        exact ((((sameBut_landed i s).toPorts.trans (sameButPorts_trained i _ _)).trans
          (sameBut_asks i .state .presence _).toPorts).trans (sameBut_post i _ _ _).toPorts).withSched
  · intro i seq q step s ha hst htr hq fails
    have hbring : q.ofBringUp = true := by rcases hq with rfl | rfl <;> rfl
    have hup := up_of_training hst
    have ends : ∀ (c : Instr) (r : TxResult), exec c s = .next (ownerResult i .bringUp q r (s.landed i)) →
        bringUpResult i r (s.landed i) = trainFailed i step (s.landed i) → fails c := by
      intro c r hc hr
      exact ⟨_, hc.trans (congrArg _ hr), trainFailed_landed i step s⟩
    have hres := fun r => bringUpResult_training (s := s.landed i) (i := i) (r := r) hst (tr := step) (by simp [htr])
    refine ⟨ends _ .noReply (exec_timeout_down ha hup hbring) ?_, fun reason why hwhy => ?_, fun n bytes hecho hph hlen hne => ?_⟩
    · rw [hres]
      cases step.phase <;> rfl
    · have hrr : replyResult (.reject reason) = .reject why := by simp [replyResult, hwhy]
      have hex := exec_of_reply_down (c := .rejectReply i seq reason) (r := .reject reason) rfl ha hup (answers_reject q reason)
        (wellFormedReply_reject q hwhy) hbring
      rw [hrr] at hex
      refine ends _ _ hex ?_
      rw [hres]
      cases step.phase <;> rfl
    · subst hecho
      have hex := exec_of_reply_down (c := .echoReply i seq bytes) (r := .echoReply bytes) rfl ha hup rfl
        (by simp [wellFormedReply, hlen]) rfl
      refine ends _ _ hex ?_
      rw [hres, hph]
      exact if_neg hne

end Sys2Proof.Machine
end

section
/-! SUPPORT. The replies to STATE: the counter's comparison, the end of a presence poll, and what the controller's step
goes on with. -/

namespace Sys2Proof.Machine

open Sys2Proof

variable {s t x : State} {i j : Station} {u : LinkUser} {seq : Byte} {q : StationRequest} {p : Port} {v : Word} {st : Step}

/-! ### The counter's comparison -/

/-- The expected counter becomes the one reported, and certain (R18). -/
def StationRec.counted (v : Word) (r : StationRec) : StationRec := { r with expected := v, uncertain := false }

/-- An uncertain counter, or the one expected, is taken without an event (R18). -/
theorem compareCounter_taken (hup : s.up i = true) (h : (s.stn i).uncertain = true ∨ v = (s.stn i).expected) :
    compareCounter i v s = s.modStn i (StationRec.counted v) := by
  rw [compareCounter, if_pos hup]
  cases hu : (s.stn i).uncertain with
  | true => rfl
  | false =>
    have hv : v = (s.stn i).expected := h.resolve_left (by simp [hu])
    rw [if_neg Bool.false_ne_true, if_pos hv, modStn_id]
    rw [StationRec.counted, hv, ← hu]

/-- Another counter is taken with an event, and a sweep is asked for where the station is ONLINE (R18). -/
theorem compareCounter_changed (hup : s.up i = true) (hu : (s.stn i).uncertain = false) (hv : v ≠ (s.stn i).expected) :
    compareCounter i v s = if (s.stn i).state = .online
      then requestSweep i (post (.station i) (.unexpectedChange (v - (s.stn i).expected)) (s.modStn i (StationRec.counted v)))
      else post (.station i) (.unexpectedChange (v - (s.stn i).expected)) (s.modStn i (StationRec.counted v)) := by
  have hmod : s.modStn i (fun r => { r with expected := v }) = s.modStn i (StationRec.counted v) := by
    refine modStn_congr ?_
    rw [StationRec.counted, ← hu]
  rw [compareCounter, if_pos hup, if_neg (by simp [hu]), if_neg hv]
  simp only [hmod]
  refine if_congr ?_ rfl rfl
  simp [State.online, StationRec.counted]

/-! ### The end of a presence poll -/

/-- The poll interval of a station (R15). -/
def State.interval (s : State) (i : Station) : Nat :=
  if 0 < (s.stn i).rate then min s.timing.pollInterval 400 else s.timing.pollInterval

/-- A presence poll that has ended frees its link and starts the poll interval (R15). -/
theorem presence_left (hh : (s.link i).holder = some .presence) (hw : (s.link i).waiters = [])
    (hf : (s.link i).inFlight = none) : leave i .presence (startPoll i s) =
      s.modLink i (fun l => { l with holder := none, pollTimer := some (s.interval i) }) := by
  have hdrop : dropUser i .presence (startPoll i s)
      = s.modLink i (fun l => { l with holder := none, pollTimer := some (s.interval i) }) := by
    rw [dropUser, startPoll, modLink_modLink]
    refine modLink_congr ?_
    simp [hh, hw, hf, State.interval, Config.fastPoll]
  rw [leave, hdrop, grant_no_waiters]
  simp [hw]

/-- The record of a station whose STATE has come (R16, R18). -/
def StationRec.reported (mode : PlcMode) (v : Word) (r : StationRec) : StationRec :=
  { r with missed := 0, mode := some mode, expected := v, uncertain := false }

/-- A presence poll answered on a link for which nobody waits. -/
theorem presence_heard {f : StationRec → StationRec} {g : LinkRec → LinkRec} (ha : Alone s i seq .state .presence)
    (hg : ∀ l, g l = { l with holder := none, inFlight := none, pollTimer := some (s.interval i) })
    (hf : ∀ r, (f r).rate = r.rate) :
    leave i .presence (startPoll i (s.ended i f)) = (s.modStn i f).modLink i g := by
  have hint : (s.ended i f).interval i = s.interval i := by simp [State.interval, hf]
  rw [presence_left (by simp [ha.holder]) (by simp [ha.waiters]) (by simp), hint, State.ended, State.landed,
    modLink_modStn_comm, modLink_modLink]
  refine modLink_congr ?_
  rw [hg]

theorem leave_post_presence (src : Source) (d : Detail) (hh : (s.link i).holder = some .presence)
    (hw : (s.link i).waiters = []) (hf : (s.link i).inFlight = none) :
    leave i .presence (startPoll i (post src d s)) = post src d (leave i .presence (startPoll i s)) := by
  rw [presence_left (s := post src d s) hh hw hf, presence_left hh hw hf]
  rfl

theorem leave_sched_presence (w : Scheduler) (hh : (s.link i).holder = some .presence)
    (hw : (s.link i).waiters = []) (hf : (s.link i).inFlight = none) :
    leave i .presence (startPoll i (s.setSched w)) = (leave i .presence (startPoll i s)).setSched w := by
  rw [presence_left (s := s.setSched w) hh hw hf, presence_left hh hw hf]
  rfl

/-- What a STATE REPLY sets in a station's record before its counter is compared. -/
def StationRec.moded (mode : PlcMode) (r : StationRec) : StationRec := { r with missed := 0, mode := some mode }

theorem moded_counted (mode : PlcMode) (f : StationRec → StationRec) (hf : ∀ r, f r = (r.moded mode).counted v) :
    (s.ended i (StationRec.moded mode)).modStn i (StationRec.counted v) = s.ended i f := by
  rw [State.ended, State.ended, modStn_modStn]
  exact modStn_congr (hf _).symm

/-- The counter compared in the state in which a STATE REPLY is taken. -/
theorem compareCounter_ended {mode : PlcMode} (hup : s.up i = true) (f : StationRec → StationRec)
    (hf : ∀ r, f r = (r.moded mode).counted v) :
    (((s.stn i).uncertain = true ∨ v = (s.stn i).expected) →
      compareCounter i v (s.ended i (StationRec.moded mode)) = s.ended i f)
    ∧ ((s.stn i).uncertain = false → v ≠ (s.stn i).expected →
      compareCounter i v (s.ended i (StationRec.moded mode)) = if (s.stn i).state = .online
        then requestSweep i (post (.station i) (.unexpectedChange (v - (s.stn i).expected)) (s.ended i f))
        else post (.station i) (.unexpectedChange (v - (s.stn i).expected)) (s.ended i f)) := by
  have hstn : (s.ended i (StationRec.moded mode)).stn i = (s.stn i).moded mode := ended_stn_self
  have hup' : (s.ended i (StationRec.moded mode)).up i = true := by
    simpa [State.up, StationRec.moded] using hup
  refine ⟨fun h => ?_, fun hu hv => ?_⟩
  · rw [compareCounter_taken hup' (by rw [hstn]; exact h), moded_counted mode f hf]
  · rw [compareCounter_changed hup' (by rw [hstn]; exact hu) (by rw [hstn]; exact hv), moded_counted mode f hf, hstn]
    rfl

/-! ### The controller's step at STATE -/

/-- The next WRITE of a step is the one the model sends, wherever the tables are the same. -/
theorem stepWrite_of_nextWrite {done block offset : Nat} {words : List Word} (h : NextWrite s st done block offset words)
    (hi : x.images = s.images) (hp : x.params = s.params)
    (hw : (x.stn st.station).wordsPerFrame = (s.stn st.station).wordsPerFrame) :
    stepWrite x st done = some (block, offset, words) := by
  cases st with
  | block k b pass im =>
    obtain ⟨rfl, rfl, hne, rfl⟩ := h
    have hrest : (imageWords s.images im).drop offset ≠ [] := fun h0 => hne (by rw [h0, List.take_nil])
    simp only [stepWrite, hi, if_neg hrest]
    exact congrArg (fun n => some (block, offset, List.take n _)) hw
  | restore k b all =>
    obtain ⟨rfl, rfl, hne, rfl⟩ := h
    have hrest : all.drop offset ≠ [] := fun h0 => hne (by rw [h0, List.take_nil])
    simp only [stepWrite, if_neg hrest]
    exact congrArg (fun n => some (block, offset, List.take n _)) hw
  | values k items =>
    obtain ⟨key, a, p, hitem, hparam, rfl, rfl, rfl⟩ := h
    simp only [stepWrite, hitem, hp, hparam]

/-- What a state in which a STATE REPLY of a step has been taken has of the state before. -/
structure StateHeard (i : Station) (mode : PlcMode) (v : Word) (s x : State) : Prop where
  record : x.stn i = (s.stn i).reported mode v
  link : x.link i = { s.link i with inFlight := none }
  rest : SameBut i s { x with sched := s.sched }

section
variable {mode : PlcMode}

theorem StateHeard.ports (h : StateHeard i mode v s x) : x.ports = s.ports := (congrArg State.ports h.rest.1 :)
theorem StateHeard.portMap (h : StateHeard i mode v s x) : x.portMap = s.portMap := (congrArg State.portMap h.rest.1 :)
theorem StateHeard.roster (h : StateHeard i mode v s x) : x.roster = s.roster := (congrArg State.roster h.rest.1 :)
theorem StateHeard.guardTime (h : StateHeard i mode v s x) : x.guardTime = s.guardTime := (congrArg State.guardTime h.rest.1 :)
theorem StateHeard.changeover (h : StateHeard i mode v s x) : x.changeover = s.changeover :=
  (congrArg State.changeover h.rest.1 :)
theorem StateHeard.params (h : StateHeard i mode v s x) : x.params = s.params := (congrArg State.params h.rest.1 :)
theorem StateHeard.images (h : StateHeard i mode v s x) : x.images = s.images := (congrArg State.images h.rest.1 :)

theorem StateHeard.failsAlike (h : StateHeard i mode v s x) : FailsAlike s x where
  work := by rw [h.changeover]
  formats j := by
    by_cases hj : j = i
    · subst hj
      rw [h.record]
      rfl
    · exact congrArg StationRec.format (h.rest.2 j hj).1
  map := h.portMap
  time := h.guardTime
  tables := ⟨(congrArg State.activeFormat h.rest.1 :), h.params, (congrArg State.audit h.rest.1 :),
    (congrArg State.recipes h.rest.1 :), h.images⟩

theorem StateHeard.portOf (h : StateHeard i mode v s x) (j : Station) : x.portOf j = s.portOf j := h.failsAlike.portOf j

theorem StateHeard.port (h : StateHeard i mode v s x) (p : Port) : x.port p = s.port p := by
  rw [State.port, h.ports]
  rfl

theorem StateHeard.ended (i : Station) (mode : PlcMode) (v : Word) (s : State) :
    StateHeard i mode v s (s.ended i (StationRec.reported mode v)) := ⟨by simp, by simp, sameBut_ended i _ s⟩

theorem StateHeard.post (h : StateHeard i mode v s x) (src : Source) (d : Detail) : StateHeard i mode v s (post src d x) :=
  ⟨h.record, h.link, h.rest⟩

theorem StateHeard.requestSweep (h : StateHeard i mode v s x) : StateHeard i mode v s (requestSweep i x) := by
  rw [requestSweep_frame]
  exact ⟨h.record, h.link, h.rest⟩

/-- The state in which the controller takes the STATE REPLY of its step: the counter compared, a change posted and a
sweep asked for (R18, R145). -/
theorem stateReply_step {m : Byte} (ha : Alone s i seq .state .changeover) (hon : (s.stn i).state = .online)
    (hm : plcModeOf m = some mode) (hs : s.stage = .guarding) (hstep : s.changeover.step = some st) :
    ∃ x, exec (.stateReply i seq m v) s = .next (stateChecked st (some mode) x) ∧ StateHeard i mode v s x
      ∧ (((s.stn i).uncertain = true ∨ v = (s.stn i).expected) → x.events = s.events ∧ x.sched = s.sched)
      ∧ (¬ ((s.stn i).uncertain = true ∨ v = (s.stn i).expected) →
        x.events = postEvent s.guardTime (.station i) (.unexpectedChange (v - (s.stn i).expected)) s.events
        ∧ x.sched = { s.sched with sweeps := queueSweep i s.sched.sweeps }) := by
  have hup := up_of_online hon
  have hex := exec_stateReply (v := v) ha hup hm
  have hstepped : ∀ x, StateHeard i mode v s x → ownerResult i .changeover .state (.reply (.stateReply m v)) x
      = stateChecked st (some mode) x := by
    intro x hx
    have hx' : x.changeover.step = some st := by rw [hx.changeover, hstep]
    simp only [ownerResult, stepResult, hx', hm]
  obtain ⟨htaken, hchanged⟩ := compareCounter_ended (s := s) (mode := mode) (v := v) hup (StationRec.reported mode v)
    (fun _ => rfl)
  have h0 := StateHeard.ended i mode v s
  by_cases h : (s.stn i).uncertain = true ∨ v = (s.stn i).expected
  · refine ⟨_, ?_, h0, fun _ => ⟨rfl, rfl⟩, fun hn => absurd h hn⟩
    rw [← hstepped _ h0, ← htaken h]
    exact hex
  · have hu : (s.stn i).uncertain = false := Bool.eq_false_iff.mpr fun hu => h (.inl hu)
    have hc := hchanged hu (fun hv => h (.inr hv))
    rw [if_pos hon] at hc
    have h1 := (h0.post (.station i) (.unexpectedChange (v - (s.stn i).expected))).requestSweep
    refine ⟨_, ?_, h1, fun ht => absurd ht h, fun _ => ⟨?_, ?_⟩⟩
    · rw [← hstepped _ h1, ← hc]
      exact hex
    · rw [requestSweep_events]
      rfl
    · have hs' : (post (.station i) (.unexpectedChange (v - (s.stn i).expected))
          (s.ended i (StationRec.reported mode v))).stage = .guarding := hs
      rw [requestSweep_guarding i hs']
      rfl

theorem failOperation_sched {kind : ChKind} (f : Failure) (ha : FailsAlike s x) (hstep : s.changeover.step = some st)
    (hst : st.station = i) (hk : s.changeover.kind = some kind) (hw : (x.link i).waiters = []) :
    (failOperation f x).sched = x.sched := by
  subst hst
  by_cases hr : kind = .restore
  · subst hr
    rw [failOperation_restore f (ha.step.trans hstep) hw (ha.kind.trans hk), auditRelease_eq]
    simp
  · rw [failOperation_eq f (ha.step.trans hstep) hw (ha.kind.trans hk) hr]
    simp

/-! ### The release of a step -/

theorem releaseAnswer_refused (hp : s.portOf i = some p) (hj : (s.port p).jumper ≠ .none)
    (h : (s.port p).monitor = .fault ∨ (s.port p).holder ≠ none) : releaseAnswer i s = .refused := by
  have hno : ¬ (s.online i = true ∧ (s.port p).monitor ≠ .fault ∧ (s.port p).holder = none) := fun hall =>
    h.elim hall.2.1 (fun hn => hn hall.2.2)
  simp only [releaseAnswer, hp, if_neg hj, if_neg hno]

/-- The record of a step whose WRITE goes out. -/
def Changeover.writing (c : Changeover) : Changeover := { c with phase := .writing }

/-- The record of a step whose port settles. -/
def Changeover.settling (c : Changeover) : Changeover := { c with phase := .settling }

theorem writeNext_eq {block offset : Nat} {words : List Word}
    (h : stepWrite s st s.changeover.done = some (block, offset, words)) :
    writeNext st s = modCh Changeover.writing (sendRequest st.station (.write block offset words) .changeover s) := by
  simp only [writeNext, h]
  rfl

end

/-- The first part of O42: the STATE REPLY of a presence poll. -/
theorem stateReply_presence {m : Byte} {mode : PlcMode} (ha : Alone s i seq .state .presence)
    (hst : (s.stn i).state = .online ∨ (s.stn i).state = .quarantined) (hm : plcModeOf m = some mode) :
    exec (.stateReply i seq m v) s = .next (leave i .presence (startPoll i
      (compareCounter i v (s.ended i (StationRec.moded mode))))) := by
  have hup : s.up i = true := by rcases hst with h | h <;> simp [State.up, h]
  rw [exec_stateReply (v := v) ha hup hm]
  rfl

end Sys2Proof.Machine
end

section
/-! SUPPORT. The STATE REPLY of a presence poll and of a step of the controller. -/

namespace Sys2Proof.Machine

open Sys2Proof

variable {s t x : State} {i j : Station} {u : LinkUser} {seq : Byte} {q : StationRequest} {p : Port} {v : Word} {st : Step}
  {mode : PlcMode}

/-- A state with what a step may change set aside. -/
def stepMask (s z : State) : State :=
  { z with
    stations := s.stations
    links := s.links
    events := s.events
    ports := s.ports
    changeover := s.changeover
    sched := s.sched }

/-- A step's state with the inhibit ports, the controller's record and the scheduler of its own. -/
theorem sameButStep_of {g : Changeover → Changeover} {y : State} (hx : SameBut i s { x with sched := s.sched })
    (hy : SameButPorts i x y) (hp : ∀ p : Port, s.portOf i ≠ some p → y.port p = s.port p) :
    SameButStep i s (modCh g y) := by
  refine ⟨⟨?_, fun j hj => ⟨(hy.2 j hj).1.trans (hx.2 j hj).1, (hy.2 j hj).2.trans (hx.2 j hj).2⟩⟩, hp⟩
  have h1 := congrArg (stepMask s) hy.1
  have h2 := congrArg (fun z : State => { z with ports := s.ports, changeover := s.changeover }) hx.1
  exact h1.trans h2

theorem sameButPorts_grantRelease (i : Station) (h : ReleaseHolder) (s : State) : SameButPorts i s (grantRelease i h s) := by
  rw [grantRelease_frame]
  exact sameButPorts_setPorts i _ s

@[simp] theorem grantRelease_changeover {h : ReleaseHolder} : (grantRelease i h s).changeover = s.changeover := by
  rw [grantRelease_frame, State.setPorts_changeover]
@[simp] theorem grantRelease_sched {h : ReleaseHolder} : (grantRelease i h s).sched = s.sched := by
  rw [grantRelease_frame, State.setPorts_sched]
@[simp] theorem grantRelease_images {h : ReleaseHolder} : (grantRelease i h s).images = s.images := by
  rw [grantRelease_frame, State.setPorts_images]
@[simp] theorem grantRelease_params {h : ReleaseHolder} : (grantRelease i h s).params = s.params := by
  rw [grantRelease_frame, State.setPorts_params]

/-- What a step's WRITE that goes out leaves of its station. -/
theorem write_sent (hx : StateHeard i mode v s x) (g : Changeover → Changeover) (y : State) (hs : y.stn i = x.stn i)
    (hl : y.link i = x.link i) (hr : y.roster = x.roster) (q : StationRequest) :
    let t := modCh g (sendRequest i q .changeover y)
    t.stn i = { (s.stn i).reported mode v with nextSeq := (s.stn i).nextSeq + 1#8 }
      ∧ t.link i = { s.link i with inFlight := some (s.sending i q .changeover) } := by
  refine ⟨?_, ?_⟩
  · simp [hs, hx.record, StationRec.reported]
  · simp [hl, hx.link, State.sending, hs, hx.record, StationRec.reported, hr, hx.roster]

/-- A step whose station is in STOP or FAULT on a port of jumper NONE writes at once (R26, R145). -/
theorem askStepRelease_unmonitored (hst : st.station = i) (hp : x.portOf i = some p) (hj : (x.port p).jumper = .none) :
    askStepRelease st x = writeNext st x := by
  subst hst
  simp only [askStepRelease, releaseAnswer_notNeeded hp hj]

theorem askStepRelease_granted (hst : st.station = i) (hp : x.portOf i = some p) (hj : (x.port p).jumper ≠ .none)
    (hon : (x.stn i).state = .online) (hf : (x.port p).monitor ≠ .fault) (hh : (x.port p).holder = none) :
    askStepRelease st x = if x.roster[i].releaseSettle = 0 then writeNext st (grantRelease i .changeover x)
      else modCh Changeover.settling (grantRelease i .changeover x) := by
  subst hst
  simp only [askStepRelease, releaseAnswer_granted hp hj hon hf hh]
  by_cases h0 : x.roster[st.station].releaseSettle = 0
  · rw [if_pos h0, decide_eq_true h0]
  · rw [if_neg h0, decide_eq_false h0]
    rfl

theorem askStepRelease_refused (hst : st.station = i) (hp : x.portOf i = some p) (hj : (x.port p).jumper ≠ .none)
    (h : (x.port p).monitor = .fault ∨ (x.port p).holder ≠ none) (hstep : x.changeover.step = some st) :
    askStepRelease st x = failOperation (failureOf st x.changeover.done .inhibit none) x := by
  subst hst
  simp only [askStepRelease, releaseAnswer_refused hp hj h, failureHere_eq _ _ hstep]

/-- Settles O42. -/
theorem stateReplyTaken : Obligations.StateReplyTaken := by
  refine ⟨?_, ?_⟩
  · intro i seq m v mode s ha hst hm interval t
    have hup : s.up i = true := by rcases hst with h | h <;> simp [State.up, h]
    have hex := stateReply_presence (v := v) ha hst hm
    obtain ⟨htaken, hchanged⟩ := compareCounter_ended (s := s) (mode := mode) (v := v) hup (StationRec.reported mode v)
      (fun _ => rfl)
    have hend : leave i .presence (startPoll i (s.ended i (StationRec.reported mode v))) = t :=
      presence_heard ha (fun _ => rfl) (fun _ => rfl)
    have hpost := leave_post_presence (i := i) (s := s.ended i (StationRec.reported mode v)) (.station i)
      (.unexpectedChange (v - (s.stn i).expected)) (by simp [ha.holder]) (by simp [ha.waiters]) (by simp)
    rw [hend] at hpost
    refine ⟨fun h => ?_, fun hu hv hquiet => ?_, fun hu hv hg hon => ?_⟩
    · rw [hex, htaken h, hend]
    · rw [hex, hchanged hu hv, ← hpost]
      by_cases hon : (s.stn i).state = .online
      · have hconf : s.stage = .configure := hquiet.resolve_right (by simp [hon])
        rw [if_pos hon, requestSweep_configure]
        show s.stage ≠ .guarding
        rw [hconf]
        exact nofun
      · rw [if_neg hon]
    · have hsweep := requestSweep_guarding i (s := post (.station i) (.unexpectedChange (v - (s.stn i).expected))
        (s.ended i (StationRec.reported mode v))) hg
      rw [hex, hchanged hu hv, if_pos hon, hsweep]
      have hsched := leave_sched_presence (i := i) (s := post (.station i) (.unexpectedChange (v - (s.stn i).expected))
        (s.ended i (StationRec.reported mode v))) { s.sched with sweeps := queueSweep i s.sched.sweeps }
        (by simp [ha.holder]) (by simp [ha.waiters]) (by simp)
      rw [hpost] at hsched
      exact congrArg _ hsched
  · intro i p seq m v mode st kind s ha hon hm hs happ hstep hst hk hstop hp taken heard events sched failure fails
    obtain ⟨x, hex, hx, hsame, hother⟩ := stateReply_step (v := v) ha hon hm hs hstep
    have hev : x.events = events := by
      by_cases h : taken
      · exact (hsame h).1.trans (if_pos h).symm
      · exact (hother h).1.trans (if_neg h).symm
    have hsched : x.sched = sched := by
      by_cases h : taken
      · exact (hsame h).2.trans (if_pos h).symm
      · exact (hother h).2.trans (if_neg h).symm
    have hxstep : x.changeover.step = some st := by rw [hx.changeover, hstep]
    have hxp : x.portOf i = some p := (hx.portOf i).trans hp
    have hport := hx.port p
    have hholder : (x.link i).holder = some .changeover := by rw [hx.link]; exact ha.holder
    have hwait : (x.link i).waiters = [] := by rw [hx.link]; exact ha.waiters
    have hflight : (x.link i).inFlight = none := by rw [hx.link]
    have failed : ∀ cause, stateChecked st (some mode) x = failOperation (failureOf st x.changeover.done cause none) x →
        fails cause := by
      intro cause hc
      rw [hx.changeover] at hc
      refine ⟨_, hex.trans (congrArg _ hc), ?_, fun hne => ?_, fun hr => ?_⟩
      · rw [failOperation_sched _ hx.failsAlike hstep hst hk hwait, hsched]
      · rw [← hev]
        exact failOperation_failed _ hx.failsAlike hstep hst hk hne hholder hwait hflight
      · subst hr
        obtain ⟨⟨h1, h2, h3, -, h5, h6, h7⟩, -, h8⟩ := failOperation_restoreFailed (i := i)
          (failureOf st s.changeover.done cause none) hx.failsAlike hstep hst hk hholder hwait hflight
        rw [← hev]
        refine ⟨h1, h2.1, h2.2, h3 p hp, ?_, h5.2, h6.2, h7⟩
        rw [h8, hx.record]
        rfl
    refine ⟨fun hrun => ?_, fun hrun hj hbad => ?_, ?_⟩
    · refine failed .interlock ?_
      rw [stateChecked, if_pos (by rw [hrun]), failureHere_eq _ _ hxstep]
    · refine failed .inhibit ?_
      rw [stateChecked, if_neg (by simpa using hrun)]
      exact askStepRelease_refused hst hxp (by rw [hport]; exact hj) (by rw [hport]; exact hbad) hxstep
    intro block offset words hrun hnext settle sent writes goesOn
    have hask : stateChecked st (some mode) x = askStepRelease st x := if_neg (by simpa using hrun)
    have hxon : (x.stn i).state = .online := by rw [hx.record]; exact hon
    refine ⟨fun hj => ?_, fun hj hfault hfree => ?_⟩
    · have hwrite : stepWrite x st x.changeover.done = some (block, offset, words) := by
        rw [hx.changeover]
        refine stepWrite_of_nextWrite hnext hx.images hx.params ?_
        rw [hst, hx.record]
        rfl
      have hsend := writeNext_eq hwrite
      rw [hst] at hsend
      obtain ⟨h1, h2⟩ := write_sent hx Changeover.writing x rfl rfl rfl (.write block offset words)
      refine ⟨_, ⟨hex.trans (congrArg _ (hask.trans ((askStepRelease_unmonitored hst hxp (by rw [hport]; exact hj)).trans
        hsend))), hev, hsched, ?_⟩, ⟨?_, h1, h2⟩, ?_⟩
      · exact sameButStep_of hx.rest (sameBut_sendRequest i _ _ x).toPorts (fun q _ => hx.port q)
      · exact congrArg Changeover.writing hx.changeover
      · exact hx.ports
    · have hgrant := askStepRelease_granted hst hxp (by rw [hport]; exact hj) hxon (by rw [hport]; exact hfault)
        (by rw [hport]; exact hfree)
      have hset : x.roster[i].releaseSettle = settle := by rw [hx.roster]
      rw [hset] at hgrant
      obtain ⟨mon, hmon⟩ := grantRelease_port (s := x) (h := .changeover) hxp
      rw [hport, hset] at hmon
      have hothers : ∀ q : Port, s.portOf i ≠ some q → (grantRelease i .changeover x).port q = s.port q := fun q hq =>
        (grantRelease_port_other (by rw [hx.portOf]; exact hq)).trans (hx.port q)
      by_cases h0 : settle = 0
      · have hwrite : stepWrite (grantRelease i .changeover x) st (grantRelease i .changeover x).changeover.done
            = some (block, offset, words) := by
          rw [grantRelease_changeover, hx.changeover]
          refine stepWrite_of_nextWrite hnext (by rw [grantRelease_images, hx.images]) (by rw [grantRelease_params, hx.params]) ?_
          rw [hst, grantRelease_stn, hx.record]
          rfl
        have hsend := writeNext_eq hwrite
        rw [hst] at hsend
        obtain ⟨h1, h2⟩ := write_sent hx Changeover.writing (grantRelease i .changeover x) grantRelease_stn grantRelease_link
          grantRelease_roster (.write block offset words)
        refine ⟨_, ⟨hex.trans (congrArg _ (hask.trans (hgrant.trans ((if_pos h0).trans hsend)))), ?_, ?_, ?_⟩, ?_⟩
        · simpa using hev
        · simpa using hsched
        · exact sameButStep_of hx.rest ((sameButPorts_grantRelease i .changeover x).trans
            (sameBut_sendRequest i _ _ _).toPorts) hothers
        · rw [modCh_port, sendRequest_port, hmon]
          refine ⟨rfl, rfl, rfl, fun _ => ⟨if_pos h0, ?_, h1, h2⟩, fun hn => absurd h0 hn⟩
          rw [modCh, sendRequest_changeover, grantRelease_changeover, hx.changeover]
          rfl
      · refine ⟨_, ⟨hex.trans (congrArg _ (hask.trans (hgrant.trans (if_neg h0)))), ?_, ?_, ?_⟩, ?_⟩
        · simpa using hev
        · simpa using hsched
        · exact sameButStep_of hx.rest (sameButPorts_grantRelease i .changeover x) hothers
        · rw [modCh_port, hmon, modCh_stn, modCh_link, grantRelease_stn, grantRelease_link, hx.record, hx.link]
          refine ⟨rfl, rfl, rfl, fun hz => absurd hz h0, fun _ => ⟨if_neg h0, ?_, rfl, rfl⟩⟩
          rw [modCh, grantRelease_changeover, hx.changeover]
          rfl

end Sys2Proof.Machine
end

section
/-! SUPPORT. The ends of tool operations, the counters no operation at work touches, and the steps of the controller that
follow one another. -/

namespace Sys2Proof.Machine

open Sys2Proof

variable {s t x : State} {i j : Station} {u : LinkUser} {seq : Byte} {q : StationRequest} {p : Port} {st : Step}
  {op : ToolOp} {h : ReleaseHolder}

/-! ### Counters -/

/-- The work on a link leaves the counters of every station alone (R17, R18). -/
theorem core_of_outside (h : t.outside = s.outside) (i : Station) : (t.stn i).core = (s.stn i).core := by
  have hv : t.stations.map StationRec.core = s.stations.map StationRec.core := (congrArg State.stations h :)
  have hi := congrArg (fun v : Vector StationRec 8 => v[i]) hv
  simpa [State.stn] using hi

theorem expected_of_outside (h : t.outside = s.outside) (i : Station) : (t.stn i).expected = (s.stn i).expected :=
  (congrArg StationRec.expected (core_of_outside h i) :)

theorem missed_of_outside (h : t.outside = s.outside) (i : Station) : (t.stn i).missed = (s.stn i).missed :=
  (congrArg StationRec.missed (core_of_outside h i) :)

theorem uncertain_of_outside (h : t.outside = s.outside) (i : Station) : (t.stn i).uncertain = (s.stn i).uncertain :=
  (congrArg StationRec.uncertain (core_of_outside h i) :)

/-- On an ONLINE station the operation that takes a result leaves the counters alone. -/
theorem ownerResult_outside {r : TxResult} (hon : (s.stn i).state = .online) :
    (ownerResult i u q r s).outside = s.outside := by
  cases u with
  | bringUp => simp [ownerResult, bringUpResult, hon]
  | presence => exact presenceResult_outside _ _ _
  | tool => exact toolResult_outside _ _ _ _
  | access c => exact accessResult_outside _ _ _ _
  | audit => exact checkResult_outside _ _ _
  | changeover => exact stepResult_outside _ _ _ _

theorem linkEffects_write (i : Station) (b o : Nat) (ws : List Word) (r : StationReply) (s : State) :
    linkEffects i (.write b o ws) (.reply r) (s.heard i) = s.ended i ackedRec := by
  simp only [linkEffects, State.heard, State.ended, modStn_modStn]
  rfl

/-! ### The end of a tool operation -/

/-- A tool operation has ended in its slot and on its link, the link not yet passed on (R82, R94). -/
def State.closed (s : State) (i : Station) : State :=
  (s.gaveUp i (.tool i) .tool).modStn i (fun r => { r with slot := none })

theorem relayClose_eq (i : Station) (s : State) : relayClose i s = s.closed i := by
  rw [relayClose, State.closed, State.gaveUp, returnRelease_eq]
  rfl

@[simp] theorem closed_stn_self : (s.closed i).stn i = { s.stn i with slot := none } := by simp [State.closed]
theorem closed_stn_ne (hj : j ≠ i) : (s.closed i).stn j = s.stn j := by
  rw [State.closed, stn_modStn_ne _ _ (Ne.symm hj), gaveUp_stn]
@[simp] theorem closed_link (j : Station) : (s.closed i).link j = (s.gaveUp i (.tool i) .tool).link j := rfl
@[simp] theorem closed_port (p : Port) : (s.closed i).port p = (returnRelease i (.tool i) s).port p := rfl
@[simp] theorem closed_ports : (s.closed i).ports = s.returned i (.tool i) := rfl
@[simp] theorem closed_engp (e : EngId) : (s.closed i).engp e = s.engp e := gaveUp_engp s i (.tool i) .tool e
@[simp] theorem closed_events : (s.closed i).events = s.events := gaveUp_events s i (.tool i) .tool
@[simp] theorem closed_guardTime : (s.closed i).guardTime = s.guardTime := gaveUp_guardTime s i (.tool i) .tool
@[simp] theorem closed_params : (s.closed i).params = s.params := gaveUp_params s i (.tool i) .tool
@[simp] theorem closed_images : (s.closed i).images = s.images := gaveUp_images s i (.tool i) .tool
@[simp] theorem closed_audit : (s.closed i).audit = s.audit := gaveUp_audit s i (.tool i) .tool
@[simp] theorem closed_sched : (s.closed i).sched = s.sched := gaveUp_sched s i (.tool i) .tool
@[simp] theorem closed_stage : (s.closed i).stage = s.stage := gaveUp_stage s i (.tool i) .tool

/-- The holder of a link for which nobody waits ends there, and the link is idle. -/
theorem closed_link_idle (hh : (s.link i).holder = some .tool) (hw : (s.link i).waiters = [])
    (hf : (s.link i).inFlight = none) : (s.closed i).link i = { s.link i with holder := none } := by
  rw [closed_link, gaveUp_link_idle hh hw hf]

/-- A link for which nobody waits does not pass when its tool operation ends. -/
theorem grant_closed (hw : (s.link i).waiters = []) : grant i (s.closed i) = s.closed i :=
  grant_no_waiters (by rw [closed_link, gaveUp_link_self]; simp [hw])

theorem endRelay_eq {o : RelayOutcome} (hw : (s.link i).waiters = []) :
    endRelay i op o s = relayReport i op o (s.closed i) := by
  rw [endRelay, relayClose_eq, grant_closed hw]

theorem endToolRead_eq {r : ToolReply} (hw : (s.link i).waiters = []) :
    endToolRead i op r s = deliver i op r (s.closed i) := by
  rw [endToolRead, relayClose_eq, grant_closed hw]

/-- The record of a port that is answered (R83). -/
def EngPort.answered (tag : Byte) (r : ToolReply) (p : EngPort) : EngPort :=
  { p with tx := p.tx ++ [{ tag := tag, reply := r, remaining := frameTime r.body.length }], awaited := none,
           state := .ready }

/-- The port that waits for an operation of its present attachment is answered (R83, R104). -/
theorem deliver_waiting {r : ToolReply} (h1 : (s.engp op.port).state = .waiting)
    (h2 : (s.engp op.port).attachment = op.attachment) (h3 : (s.engp op.port).awaited = some i) :
    deliver i op r s = s.modEng op.port (EngPort.answered op.tag r) := by
  rw [deliver, if_pos ⟨h1, h2, h3⟩, sendTool, modEng_modEng]
  rfl

theorem engp_answered {r : ToolReply} : ((s.modEng op.port (EngPort.answered op.tag r)).engp op.port)
    = (s.engp op.port).answered op.tag r := by simp

/-- The release of an operation that has ended is returned, and no other (R28). -/
theorem returnRelease_ports (hp : s.portOf i = some p) (hn : (s.port p).holder ≠ some h) :
    (returnRelease i h s).ports = s.ports := by
  rw [returnRelease_none]
  intro q hq
  rw [hp] at hq
  cases hq
  exact hn

/-! ### Frames of the controller's steps -/

/-- A state with the records and links of the stations, the inhibit ports and the controller's record set aside. -/
def workMask (s z : State) : State :=
  { z with
    stations := s.stations
    links := s.links
    ports := s.ports
    changeover := s.changeover }

/-- Alike but for them. -/
def WorksOn (s t : State) : Prop := workMask s t = s

theorem WorksOn.trans (h1 : WorksOn s t) (h2 : WorksOn t x) : WorksOn s x :=
  (congrArg (workMask s) h2 :).trans h1

theorem worksOn_ended (i : Station) (f : StationRec → StationRec) (s : State) : WorksOn s (s.ended i f) := rfl
theorem worksOn_modCh (f : Changeover → Changeover) (s : State) : WorksOn s (modCh f s) := rfl
theorem worksOn_asks (i : Station) (q : StationRequest) (u : LinkUser) (s : State) : WorksOn s (s.asks i q u) := rfl
theorem worksOn_addWaiter (i : Station) (u : LinkUser) (s : State) : WorksOn s (addWaiter i u s) := rfl
theorem worksOn_gaveUp (i : Station) (h : ReleaseHolder) (u : LinkUser) (s : State) : WorksOn s (s.gaveUp i h u) := by
  rw [State.gaveUp, returnRelease_eq]
  rfl

theorem WorksOn.events (hx : WorksOn s t) : t.events = s.events := (congrArg State.events hx :)
theorem WorksOn.roster (hx : WorksOn s t) : t.roster = s.roster := (congrArg State.roster hx :)
theorem WorksOn.images (hx : WorksOn s t) : t.images = s.images := (congrArg State.images hx :)
theorem WorksOn.params (hx : WorksOn s t) : t.params = s.params := (congrArg State.params hx :)

/-! ### Steps that begin -/

theorem asks_stn (j : Station) : (s.asks i q u).stn j =
    if j = i then { s.stn j with nextSeq := (s.stn j).nextSeq + 1#8 } else s.stn j := by
  by_cases hj : j = i
  · subst hj
    rw [if_pos rfl, asks_stn_self]
  · rw [if_neg hj, asks_stn_ne hj]

theorem asks_link (j : Station) : (s.asks i q u).link j =
    if j = i then { s.link j with holder := some u, inFlight := some (s.sending i q u) } else s.link j := by
  by_cases hj : j = i
  · subst hj
    rw [if_pos rfl, asks_link_self]
  · rw [if_neg hj, asks_link_ne hj]

theorem beginStep_eq (hstep : s.changeover.step = some st) (hon : (s.stn st.station).state = .online) :
    beginStep s = place st.station .changeover (modCh Changeover.fresh s) := by
  have hmay : mayPlace (s.stn st.station).state .changeover = true := by rw [hon]; rfl
  have hst : (modCh (fun c => { c with phase := .waiting, done := 0, got := [] }) s).changeover.step = some st := hstep
  unfold beginStep
  simp only
  rw [hst]
  exact if_pos hmay

/-- A step whose station's link is occupied waits for it (R145). -/
theorem beginStep_waits (hstep : s.changeover.step = some st) (hon : (s.stn st.station).state = .online)
    (ho : s.occupied st.station) : beginStep s = addWaiter st.station .changeover (modCh Changeover.fresh s) :=
  (beginStep_eq hstep hon).trans (place_occupied (s := modCh Changeover.fresh s) ho)

/-- The record of a step whose first words are read. -/
def Changeover.reading (c : Changeover) : Changeover := { c with phase := .reading, done := 0, got := [] }

/-- A step of VERIFYING on an idle link takes it and sends its first READ (R148). -/
theorem beginStep_verifying {b o n : Nat} (hver : s.changeover.state = .verifying) (hstep : s.changeover.step = some st)
    (hon : (s.stn st.station).state = .online) (hi : s.idleLink st.station) (hr : stepRead s st 0 = some (b, o, n)) :
    beginStep s = modCh Changeover.reading (s.asks st.station (.read b o n) .changeover) := by
  have hstart : startUser st.station .changeover ((modCh Changeover.fresh s).heldBy st.station .changeover)
      = modCh Changeover.reading (s.asks st.station (.read b o n) .changeover) := by
    have hst : ((modCh Changeover.fresh s).heldBy st.station .changeover).changeover.step = some st := hstep
    have hv : ((modCh Changeover.fresh s).heldBy st.station .changeover).changeover.state = .verifying := hver
    have hread : stepRead ((modCh Changeover.fresh s).heldBy st.station .changeover) st
        ((modCh Changeover.fresh s).heldBy st.station .changeover).changeover.done = some (b, o, n) := hr
    simp only [startUser, startStep, hv, hst, hread]
    rfl
  rw [beginStep_eq hstep hon, place_idle (s := modCh Changeover.fresh s) (u := .changeover) hi, hstart]
  rw [hstart]
  exact sendRequest_occupied _ _ _ _

/-- Nothing is left to write of a step that is written whole. -/
theorem stepWrite_of_whole {done : Nat} (h : WrittenWhole s st done) (hi : x.images = s.images) :
    stepWrite x st done = none := by
  cases st with
  | block k b pass im =>
    simp only [stepWrite, hi, if_pos (List.drop_eq_nil_of_le h)]
  | restore k b all =>
    simp only [stepWrite, if_pos (List.drop_eq_nil_of_le h)]
  | values k items =>
    simp only [stepWrite, List.getElem?_eq_none h]

theorem stepRead_of_nextWrite {done block offset : Nat} {words : List Word} (h : NextWrite s st done block offset words)
    (hi : x.images = s.images) (hp : x.params = s.params)
    (hw : (x.stn st.station).wordsPerFrame = (s.stn st.station).wordsPerFrame) :
    stepRead x st done = some (block, offset, words.length) := by
  simp only [stepRead, stepWrite_of_nextWrite h hi hp hw]

/-- A step that has ended frees its link for the next one (R145, R148). -/
theorem finishStep_eq (hw : (s.link st.station).waiters = []) :
    finishStep st s = nextStep (s.gaveUp st.station .changeover .changeover) :=
  congrArg nextStep (grant_gaveUp (s := s) (h := .changeover) (u := .changeover) hw)

end Sys2Proof.Machine
end

section
/-! SUPPORT. The ACK of a WRITE: the counters, the relay that goes on or ends, and the controller's step. -/

namespace Sys2Proof.Machine

open Sys2Proof

variable {s t x : State} {i j : Station} {u : LinkUser} {seq : Byte} {q : StationRequest} {p : Port} {st : Step}
  {op : ToolOp}

/-! ### A relay -/

/-- What a tool operation leaves whose next request goes out. -/
theorem tool_goes_on {f : StationRec → StationRec} (hf : CountsOnly f) (op' : ToolOp) (g : ToolOp → ToolOp)
    (q : StationRequest) (hs : (s.stn i).slot ≠ none) :
    let t := modSlot i g (sendRequest i q .tool (modSlot i (fun _ => op') (s.ended i f)))
    (t.stn i).slot = some (g op') ∧ t.link i = { s.link i with inFlight := some (s.sending i q .tool) }
      ∧ SameBut i s t ∧ t.events = s.events := by
  obtain ⟨op, hop⟩ := Option.ne_none_iff_exists'.mp hs
  refine ⟨?_, ?_, ?_, ?_⟩
  · simp [hf.slot, hop]
  · simp [State.sending, hf.nextSeq, modSlot]
  · have h1 := (sameBut_ended i f s).trans (sameBut_modSlot i (fun _ => op') _)
    exact (h1.trans (sameBut_sendRequest i q .tool _)).trans (sameBut_modSlot i g _)
  · simp [modSlot]

theorem relayReport_done (hr : op.readBack = false) (ha : op.adjusted = false) :
    relayReport i op .verified s = deliver i op (.done op.block op.offset op.words) s := by
  simp only [relayReport, relayTrouble, relayReply, hr, ha, Bool.false_eq_true, and_false, if_false]

/-- The state of a relay whose frame has been acknowledged. -/
def State.relayAcked (s : State) (i : Station) (op : ToolOp) : State := modSlot i (fun _ => op) (s.ended i ackedRec)

@[simp] theorem relayAcked_link_self : (s.relayAcked i op).link i = { s.link i with inFlight := none } := by
  simp [State.relayAcked]
@[simp] theorem relayAcked_portOf : (s.relayAcked i op).portOf j = s.portOf j := rfl
@[simp] theorem relayAcked_port : (s.relayAcked i op).port p = s.port p := rfl
@[simp] theorem relayAcked_engp (e : EngId) : (s.relayAcked i op).engp e = s.engp e := rfl
@[simp] theorem relayAcked_events : (s.relayAcked i op).events = s.events := rfl
@[simp] theorem relayAcked_params : (s.relayAcked i op).params = s.params := rfl

/-- The operation with a frame more acknowledged (R80). -/
def ToolOp.ackedMore (op : ToolOp) (n : Nat) : ToolOp := { op with acked := op.acked + n }

theorem toolResult_relay {r : TxResult} (hs : (x.stn i).slot = some op) (hw : op.write = true) :
    toolResult i q r x = relayResult i op q r x := by
  simp only [toolResult, hs]
  exact if_pos hw

theorem toolResult_ack {b o : Nat} {ws : List Word} (hs : (s.stn i).slot = some op) (hw : op.write = true)
    (he : op.expired = false) :
    toolResult i (.write b o ws) (.reply .ack) (s.ended i ackedRec) =
      if op.acked + ws.length < op.words.length then
        sendToolWrite i (op.ackedMore ws.length) (s.relayAcked i (op.ackedMore ws.length))
      else if op.readBack then sendToolRead i (op.ackedMore ws.length) .readingBack (s.relayAcked i (op.ackedMore ws.length))
      else endRelay i (op.ackedMore ws.length) .verified (s.relayAcked i (op.ackedMore ws.length)) := by
  have hslot : ((s.ended i ackedRec).stn i).slot = some op := by rw [ended_stn_self]; exact hs
  rw [toolResult_relay hslot hw]
  exact if_neg (show ¬ op.expired = true by simp [he])

/-- The slot of a station with a frame more acknowledged, as its next request reads it. -/
theorem relayAcked_wordsPerFrame : ((s.relayAcked i op).stn i).wordsPerFrame = (s.stn i).wordsPerFrame := by
  simp [State.relayAcked, countsOnly_acked.wordsPerFrame]

/-- The second part of O43: an ACK of a relay. -/
theorem writeAck_relay (i : Station) (p : Port) (seq : Byte) (b o : Nat) (ws : List Word) (op : ToolOp) (s : State)
    (ha : Alone s i seq (.write b o ws) .tool) (hon : (s.stn i).state = .online) (hs : (s.stn i).slot = some op)
    (hw : op.write = true) (he : op.expired = false) :
    (op.acked + ws.length < op.words.length →
        let acked := op.acked + ws.length
        ∃ t, exec (.writeAck i seq) s = .next t
          ∧ (t.stn i).slot = some { op with acked := acked, phase := .writing, writeSent := true }
          ∧ (t.link i).holder = some .tool
          ∧ (t.link i).inFlight = some
            { seq := (s.stn i).nextSeq,
              request := .write op.block (op.offset + acked)
                ((op.words.drop acked).take (min (s.stn i).wordsPerFrame (op.words.length - acked))),
              owner := some .tool, timeout := s.roster[i].replyTimeout }
          ∧ SameBut i s t ∧ t.events = s.events)
      ∧ (op.acked + ws.length = op.words.length → op.readBack = false → op.adjusted = false → s.portOf i = some p →
        (s.engp op.port).state = .waiting → (s.engp op.port).attachment = op.attachment →
        (s.engp op.port).awaited = some i →
        ∃ t tx, exec (.writeAck i seq) s = .next t ∧ (t.stn i).slot = none ∧ (t.link i).holder = none
          ∧ (t.link i).inFlight = none
          ∧ ((s.port p).holder = some (.tool i) → (t.port p).driven = .asserted ∧ (t.port p).holder = none
              ∧ (t.port p).limitTimer = none ∧ (t.port p).settleTimer = none)
          ∧ ((s.port p).holder ≠ some (.tool i) → t.ports = s.ports) ∧ (t.engp op.port).state = .ready
          ∧ (t.engp op.port).awaited = none
          ∧ (t.engp op.port).tx = (s.engp op.port).tx ++ [tx] ∧ tx.tag = op.tag
          ∧ tx.reply = .done op.block op.offset op.words ∧ t.events = s.events ∧ t.params = s.params)
      ∧ (op.acked + ws.length = op.words.length → op.readBack = true → op.got = [] →
        ∃ t, exec (.writeAck i seq) s = .next t ∧ (t.stn i).slot = some
            { op with acked := op.words.length, phase := .readingBack }
          ∧ (t.link i).inFlight = some
            { seq := (s.stn i).nextSeq,
              request := .read op.block op.offset (min (s.stn i).wordsPerFrame op.count), owner := some .tool,
              timeout := s.roster[i].replyTimeout }
          ∧ SameBut i s t ∧ t.events = s.events) := by
  have hslot : (s.stn i).slot ≠ none := by rw [hs]; exact nofun
  have hex := (exec_writeAck ha (up_of_online hon)).trans (congrArg _ (toolResult_ack (b := b) (o := o) (ws := ws) hs hw he))
  refine ⟨fun hlt => ?_, fun heq hrb hadj hport h1 h2 h3 => ?_, fun heq hrb hgot => ?_⟩
  · rw [if_pos hlt] at hex
    obtain ⟨g1, g2, g3, g4⟩ := tool_goes_on (s := s) (i := i) countsOnly_acked (op.ackedMore ws.length)
      (fun op => { op with phase := .writing, writeSent := true })
      (.write op.block (op.offset + (op.acked + ws.length)) ((op.words.drop (op.acked + ws.length)).take
        (min (s.stn i).wordsPerFrame (op.words.length - (op.acked + ws.length))))) hslot
    have hsend : sendToolWrite i (op.ackedMore ws.length) (s.relayAcked i (op.ackedMore ws.length)) = _ :=
      congrArg (fun n => modSlot i (fun op => { op with phase := .writing, writeSent := true }) (sendRequest i
        (.write op.block (op.offset + (op.acked + ws.length)) ((op.words.drop (op.acked + ws.length)).take
          (min n (op.words.length - (op.acked + ws.length))))) .tool (s.relayAcked i (op.ackedMore ws.length))))
        (relayAcked_wordsPerFrame (s := s) (i := i) (op := op.ackedMore ws.length))
    rw [hsend] at hex
    refine ⟨_, hex, g1, ?_, ?_, g3, g4⟩
    · exact (congrArg LinkRec.holder g2).trans ha.holder
    · exact (congrArg LinkRec.inFlight g2)
  · rw [if_neg (by omega), if_neg (by simp [hrb]), endRelay_eq (by simp [ha.waiters]),
      relayReport_done (op := op.ackedMore ws.length) hrb hadj, deliver_waiting (op := op.ackedMore ws.length)
        (by rw [closed_engp]; exact h1) (by rw [closed_engp]; exact h2) (by rw [closed_engp]; exact h3)] at hex
    have hlink : ((s.relayAcked i (op.ackedMore ws.length)).closed i).link i
        = { s.link i with holder := none, inFlight := none } := by
      rw [closed_link_idle (by simp [ha.holder]) (by simp [ha.waiters]) (by simp), relayAcked_link_self]
    have heng := engp_answered (s := (s.relayAcked i (op.ackedMore ws.length)).closed i) (op := op.ackedMore ws.length)
      (r := .done op.block op.offset op.words)
    rw [closed_engp, relayAcked_engp] at heng
    refine ⟨_, _, hex, ?_, ?_, ?_, fun hh => ?_, fun hh => ?_, congrArg EngPort.state heng, congrArg EngPort.awaited heng,
      congrArg EngPort.tx heng, rfl, rfl, ?_, ?_⟩
    · rw [State.modEng_stn, closed_stn_self]
    · rw [State.modEng_link, hlink]
    · rw [State.modEng_link, hlink]
    · rw [State.modEng_port, closed_port]
      exact returnRelease_port_held hport hh
    · rw [State.modEng_ports]
      exact returnRelease_ports (s := s.relayAcked i (op.ackedMore ws.length)) hport hh
    · rw [State.modEng_events, closed_events, relayAcked_events]
    · rw [State.modEng_params, closed_params, relayAcked_params]
  · rw [if_neg (by omega), if_pos hrb] at hex
    obtain ⟨g1, g2, g3, g4⟩ := tool_goes_on (s := s) (i := i) countsOnly_acked (op.ackedMore ws.length)
      (fun op => { op with phase := .readingBack })
      (.read op.block op.offset (min (s.stn i).wordsPerFrame op.count)) hslot
    have hsend : sendToolRead i (op.ackedMore ws.length) .readingBack (s.relayAcked i (op.ackedMore ws.length))
        = modSlot i (fun op => { op with phase := .readingBack }) (sendRequest i
          (.read op.block op.offset (min (s.stn i).wordsPerFrame op.count)) .tool (s.relayAcked i (op.ackedMore ws.length))) := by
      have hg : (op.ackedMore ws.length).got = [] := hgot
      simp only [sendToolRead, hg, List.length_nil, Nat.add_zero, Nat.sub_zero, chunk, relayAcked_wordsPerFrame]
      rfl
    rw [hsend] at hex
    refine ⟨_, hex, ?_, congrArg LinkRec.inFlight g2, g3, g4⟩
    rw [← heq]
    exact g1

end Sys2Proof.Machine
end

section
/-! SUPPORT. The ACK of a WRITE of the controller's step. -/

namespace Sys2Proof.Machine

open Sys2Proof

variable {s t x : State} {i j : Station} {u : LinkUser} {seq : Byte} {q : StationRequest} {p : Port} {st w : Step}
  {op : ToolOp} {k done : Nat}

/-- The controller's record with so much of its step done. -/
def Changeover.doneTo (done : Nat) (c : Changeover) : Changeover := { c with done := done }

/-- The record at another work position. -/
def Changeover.at (k : Nat) (c : Changeover) : Changeover := { c with position := some k }

/-- The record at the beginning of VERIFYING. -/
def Changeover.verifyingFrom (c : Changeover) : Changeover := { c with state := .verifying, position := some 0 }

/-- The state in which a step has ended: its transaction too, with the controller's record `g`, the release and the link
given up. -/
def State.stepEnded (s : State) (i : Station) (f : StationRec → StationRec) (g : Changeover → Changeover) : State :=
  (modCh g (s.ended i f)).gaveUp i .changeover .changeover

section
variable {f : StationRec → StationRec} {g : Changeover → Changeover}

theorem worksOn_stepEnded (s : State) (i : Station) (f : StationRec → StationRec) (g : Changeover → Changeover) :
    WorksOn s (s.stepEnded i f g) :=
  ((worksOn_ended i f s).trans (worksOn_modCh _ _)).trans (worksOn_gaveUp i .changeover .changeover _)

@[simp] theorem stepEnded_changeover : (s.stepEnded i f g).changeover = g s.changeover := gaveUp_changeover _ _ _ _

theorem stepEnded_stn (j : Station) : (s.stepEnded i f g).stn j = if j = i then f (s.stn j) else s.stn j := by
  rw [State.stepEnded, gaveUp_stn, modCh_stn]
  by_cases hj : j = i
  · subst hj
    rw [if_pos rfl, ended_stn_self]
  · rw [if_neg hj, ended_stn_ne hj]

theorem stepEnded_link (hh : (s.link i).holder = some .changeover) (hw : (s.link i).waiters = []) (j : Station) :
    (s.stepEnded i f g).link j = if j = i then { s.link j with holder := none, inFlight := none } else s.link j := by
  by_cases hj : j = i
  · subst hj
    rw [if_pos rfl, State.stepEnded, gaveUp_link_idle (by simp [hh]) (by simp [hw]) (by simp), modCh_link, ended_link_self]
  · rw [if_neg hj, State.stepEnded, gaveUp_link_ne _ _ _ hj, modCh_link, ended_link_ne hj]

/-- The inhibit port after the release has been returned (R28). -/
theorem stepEnded_port_held (hp : s.portOf i = some p) (hh : (s.port p).holder = some .changeover) :
    ((s.stepEnded i f g).port p).driven = .asserted ∧ ((s.stepEnded i f g).port p).holder = none
      ∧ ((s.stepEnded i f g).port p).limitTimer = none ∧ ((s.stepEnded i f g).port p).settleTimer = none :=
  returnRelease_port_held (s := modCh g (s.ended i f)) hp hh

theorem stepEnded_port_other (hp : s.portOf i ≠ some p ∨ (s.port p).holder ≠ some .changeover) :
    (s.stepEnded i f g).port p = s.port p :=
  returnRelease_port_other (s := modCh g (s.ended i f)) hp

/-- Where nobody holds the link of a station, or the step has freed it, the next operation takes it at once. -/
theorem stepEnded_idle (hh : (s.link i).holder = some .changeover) (hw : (s.link i).waiters = [])
    (hfree : j = i ∨ (s.link j).holder = none ∧ (s.link j).waiters = [] ∧ (s.link j).inFlight = none) :
    (s.stepEnded i f g).idleLink j := by
  rw [State.idleLink, stepEnded_link hh hw]
  by_cases hj : j = i
  · subst hj
    rw [if_pos rfl]
    exact ⟨rfl, hw, rfl⟩
  · rw [if_neg hj]
    exact hfree.resolve_left hj

theorem stepEnded_online (hf : CountsOnly f) (hon : (s.stn j).state = .online) :
    ((s.stepEnded i f g).stn j).state = .online := by
  rw [stepEnded_stn]
  split
  · rw [hf.state, hon]
  · exact hon

theorem stepEnded_wordsPerFrame (hf : CountsOnly f) :
    ((s.stepEnded i f g).stn j).wordsPerFrame = (s.stn j).wordsPerFrame := by
  rw [stepEnded_stn]
  split
  · rw [hf.wordsPerFrame]
  · rfl

/-- What asking on the link of station `j` leaves of the records and links, once a step has ended on that of `i`. -/
theorem asked_after_step (hf : CountsOnly f) (a b : Changeover → Changeover) (hh : (s.link i).holder = some .changeover)
    (hw : (s.link i).waiters = []) (j : Station) (q : StationRequest) :
    let t := modCh a ((modCh b (s.stepEnded i f g)).asks j q .changeover)
    (∀ x : Station, t.stn x =
      let r := if x = i then f (s.stn x) else s.stn x
      if x = j then { r with nextSeq := r.nextSeq + 1#8 } else r)
    ∧ (∀ x : Station, t.link x =
        if x = j then { s.link x with holder := some .changeover, inFlight := some (s.sending j q .changeover) }
        else if x = i then { s.link x with holder := none, inFlight := none } else s.link x) := by
  have hseq : ((s.stepEnded i f g).stn j).nextSeq = (s.stn j).nextSeq := by
    rw [stepEnded_stn]
    split
    · rw [hf.nextSeq]
    · rfl
  have hros : (s.stepEnded i f g).roster = s.roster := (worksOn_stepEnded s i f g).roster
  have hsend : (modCh b (s.stepEnded i f g)).sending j q .changeover = s.sending j q .changeover := by
    simp only [State.sending, modCh_stn, hseq, modCh_roster, hros]
  refine ⟨fun x => ?_, fun x => ?_⟩
  · rw [modCh_stn, asks_stn, modCh_stn, stepEnded_stn]
  · rw [modCh_link, asks_link, modCh_link, stepEnded_link hh hw, hsend]
    by_cases hj : x = j
    · rw [if_pos hj, if_pos hj]
      split <;> rfl
    · rw [if_neg hj, if_neg hj]

end

/-- A step of which nothing is left to write has ended: the next step, or VERIFYING, begins (R145). -/
theorem stepAcked_whole {n : Nat} (hst : st.station = i) (hstop : s.changeover.stop = none) (hw : (s.link i).waiters = [])
    (hwhole : WrittenWhole s st (stepAdvance st s.changeover.done n)) :
    stepAcked st n (s.ended i ackedRec) = nextStep (s.stepEnded i ackedRec (Changeover.doneTo (stepAdvance st s.changeover.done n))) := by
  subst hst
  have hnone : stepWrite (modCh (Changeover.doneTo (stepAdvance st s.changeover.done n)) (s.ended st.station ackedRec)) st
      (stepAdvance st s.changeover.done n) = none := stepWrite_of_whole hwhole rfl
  have hack : stepAcked st n (s.ended st.station ackedRec)
      = writeNext st (modCh (Changeover.doneTo (stepAdvance st s.changeover.done n)) (s.ended st.station ackedRec)) := by
    simp only [stepAcked, ended_changeover, hstop]
    rfl
  have hnone' : stepWrite (modCh (Changeover.doneTo (stepAdvance st s.changeover.done n)) (s.ended st.station ackedRec)) st
      (modCh (Changeover.doneTo (stepAdvance st s.changeover.done n)) (s.ended st.station ackedRec)).changeover.done = none :=
    hnone
  rw [hack, writeNext, hnone']
  exact finishStep_eq (s := modCh (Changeover.doneTo _) (s.ended st.station ackedRec)) (by simp [hw])

theorem nextStep_next (hpos : s.changeover.position = some k) (hlt : k + 1 < s.changeover.work.length) :
    nextStep s = beginStep (modCh (Changeover.at (k + 1)) s) := by
  unfold nextStep
  simp only [hpos, Option.getD_some]
  exact if_pos hlt

theorem nextStep_verify (hpos : s.changeover.position = some k) (hlen : k + 1 = s.changeover.work.length)
    (happ : s.changeover.state = .applying) : nextStep s = beginStep (modCh Changeover.verifyingFrom s) := by
  unfold nextStep
  simp only [hpos, Option.getD_some]
  rw [if_neg (by omega), if_pos happ]
  rfl

end Sys2Proof.Machine
end

section
/-! SUPPORT. The ACK of a WRITE of the controller's step, settled. -/

namespace Sys2Proof.Machine

open Sys2Proof

variable {s t x : State} {i j : Station} {u : LinkUser} {seq : Byte} {q : StationRequest} {p : Port} {st w : Step}
  {op : ToolOp} {k done : Nat}

/-- The controller's record of a step whose next frame goes out. -/
def Changeover.writingFrom (done : Nat) (c : Changeover) : Changeover := { c with phase := .writing, done := done }

/-- A frame acknowledged with more to write sends the next one (R145, R146). -/
theorem stepAcked_more {n block offset : Nat} {words : List Word} (hst : st.station = i) (hstop : s.changeover.stop = none)
    (hnext : NextWrite s st (stepAdvance st s.changeover.done n) block offset words) :
    stepAcked st n (s.ended i ackedRec) = modCh Changeover.writing
      (sendRequest i (.write block offset words) .changeover
        (modCh (Changeover.doneTo (stepAdvance st s.changeover.done n)) (s.ended i ackedRec))) := by
  subst hst
  have hwrite : stepWrite (modCh (Changeover.doneTo (stepAdvance st s.changeover.done n)) (s.ended st.station ackedRec)) st
      (stepAdvance st s.changeover.done n) = some (block, offset, words) :=
    stepWrite_of_nextWrite hnext rfl rfl (by simp [countsOnly_acked.wordsPerFrame])
  have hack : stepAcked st n (s.ended st.station ackedRec)
      = writeNext st (modCh (Changeover.doneTo (stepAdvance st s.changeover.done n)) (s.ended st.station ackedRec)) := by
    simp only [stepAcked, ended_changeover, hstop]
    rfl
  rw [hack]
  exact writeNext_eq hwrite

/-- What a step's next frame leaves. -/
theorem step_goes_on (f g : Changeover → Changeover) {r : StationRec → StationRec} (hr : CountsOnly r) (q : StationRequest) :
    let t := modCh f (sendRequest i q .changeover (modCh g (s.ended i r)))
    t.changeover = f (g s.changeover) ∧ t.stn i = { r (s.stn i) with nextSeq := (s.stn i).nextSeq + 1#8 }
      ∧ t.link i = { s.link i with inFlight := some (s.sending i q .changeover) }
      ∧ t.events = s.events ∧ SameBut i s { t with changeover := s.changeover } := by
  refine ⟨rfl, ?_, ?_, ?_, ?_⟩
  · simp [hr.nextSeq]
  · simp [State.sending, hr.nextSeq]
  · simp
  · have h1 := (sameBut_sendRequest i q .changeover (modCh g (s.ended i r))).withChangeover (f := f)
    exact (sameBut_ended i r s).trans h1

/-- The third part of O43: an ACK of the controller's step. -/
theorem writeAck_step (i : Station) (seq : Byte) (b o : Nat) (ws : List Word) (st : Step) (s : State)
    (ha : Alone s i seq (.write b o ws) .changeover) (hon : (s.stn i).state = .online)
    (hstep : s.changeover.step = some st) (hst : st.station = i) :
    let sent (j : Station) (q : StationRequest) : Transaction :=
        { seq := (s.stn j).nextSeq, request := q, owner := some .changeover, timeout := s.roster[j].replyTimeout }
    (∀ (f : Failure) (kind : ChKind), s.changeover.stop = some f → s.changeover.kind = some kind → kind ≠ .restore →
        ∃ t, exec (.writeAck i seq) s = .next t ∧ FailedAt i kind f s.events s t ∧ (t.stn i).missed = 0
          ∧ (t.stn i).expected = (s.stn i).expected + 1#16)
      ∧ (∀ (block offset : Nat) (words : List Word), s.changeover.stop = none →
          NextWrite s st (stepAdvance st s.changeover.done ws.length) block offset words →
          ∃ t, exec (.writeAck i seq) s = .next t
            ∧ t.changeover = s.changeover.writingFrom (stepAdvance st s.changeover.done ws.length)
            ∧ t.stn i = { ackedRec (s.stn i) with nextSeq := (s.stn i).nextSeq + 1#8 }
            ∧ t.link i = { s.link i with inFlight := some (sent i (.write block offset words)) }
            ∧ t.events = s.events ∧ SameBut i s { t with changeover := s.changeover })
      ∧ (s.changeover.stop = none → WrittenWhole s st (stepAdvance st s.changeover.done ws.length) →
          exec (.writeAck i seq) s
            = .next (nextStep (s.stepEnded i ackedRec (Changeover.doneTo (stepAdvance st s.changeover.done ws.length))))) := by
  intro sent
  have hex : exec (.writeAck i seq) s = .next (stepAcked st ws.length (s.ended i ackedRec)) := by
    rw [exec_writeAck ha (up_of_online hon)]
    refine congrArg Host.Outcome.next ?_
    have hs' : (s.ended i ackedRec).changeover.step = some st := hstep
    simp only [ownerResult, stepResult, hs']
  refine ⟨fun f kind hstop hk hne => ?_, fun block offset words hstop hnext => ?_, fun hstop hwhole => ?_⟩
  · have hack : stepAcked st ws.length (s.ended i ackedRec) = failOperation f (s.ended i ackedRec) := by
      simp only [stepAcked, ended_changeover, hstop]
    rw [hack] at hex
    have hout := failOperation_outside f (s.ended i ackedRec)
    refine ⟨_, hex, failOperation_failed f (FailsAlike.ended countsOnly_acked.format id (fun _ => rfl)) hstep hst hk hne
      ?_ ?_ ?_, ?_, ?_⟩
    · simp [ha.holder]
    · simp [ha.waiters]
    · simp
    · rw [missed_of_outside hout, ended_stn_self]
      rfl
    · rw [expected_of_outside hout, ended_stn_self]
      rfl
  · rw [stepAcked_more hst hstop hnext] at hex
    obtain ⟨h1, h2, h3, h4, h5⟩ := step_goes_on (s := s) (i := i) Changeover.writing
      (Changeover.doneTo (stepAdvance st s.changeover.done ws.length)) countsOnly_acked (.write block offset words)
    exact ⟨_, hex, h1, h2, h3, h4, h5⟩
  · rw [stepAcked_whole hst hstop ha.waiters hwhole] at hex
    exact hex

/-- Asking on a link leaves the inhibit ports alone. -/
theorem asked_ports (f g : Changeover → Changeover) (j : Station) (q : StationRequest) (x : State) :
    (modCh f ((modCh g x).asks j q u)).ports = x.ports := rfl

theorem waiting_ports (f g : Changeover → Changeover) (j : Station) (x : State) :
    (addWaiter j u (modCh f (modCh g x))).ports = x.ports := rfl

theorem asked_worksOn (f g : Changeover → Changeover) (j : Station) (q : StationRequest) (x : State) :
    WorksOn x (modCh f ((modCh g x).asks j q u)) :=
  ((worksOn_modCh g x).trans (worksOn_asks j q u _)).trans (worksOn_modCh f _)

theorem waiting_worksOn (f g : Changeover → Changeover) (j : Station) (x : State) :
    WorksOn x (addWaiter j u (modCh f (modCh g x))) :=
  ((worksOn_modCh g x).trans (worksOn_modCh f _)).trans (worksOn_addWaiter j u _)

/-- What the end of a step leaves but for the records, links and the controller. -/
theorem step_ended {f : StationRec → StationRec} {g : Changeover → Changeover} (hh : WorksOn (s.stepEnded i f g) t)
    (hp : t.ports = (s.stepEnded i f g).ports) :
    t.events = s.events
      ∧ (∀ p : Port, s.portOf i = some p → (s.port p).holder = some .changeover → (t.port p).driven = .asserted
          ∧ (t.port p).holder = none ∧ (t.port p).limitTimer = none ∧ (t.port p).settleTimer = none)
      ∧ (∀ p : Port, s.portOf i ≠ some p ∨ (s.port p).holder ≠ some .changeover → t.port p = s.port p)
      ∧ WorksOn s t := by
  have hall := (worksOn_stepEnded s i f g).trans hh
  have hport : ∀ p, t.port p = (s.stepEnded i f g).port p := fun p => congrArg (fun v : Vector InhibitPort 8 => v[p]) hp
  refine ⟨hall.events, fun p hpo hho => ?_, fun p hn => ?_, hall⟩
  · rw [hport]
    exact stepEnded_port_held hpo hho
  · rw [hport]
    exact stepEnded_port_other hn

/-- Settles O43. -/
theorem writeAckTaken : Obligations.WriteAckTaken := by
  refine ⟨?_, ?_, ?_⟩
  · intro i seq tr b o ws s hp hon hf hseq hq
    have hup := up_of_online hon
    have htaken := stationReply_taken (r := .ack) hp hf hseq (by rw [hq]; rfl) (by rw [hq]; rfl)
    have hstate : ((s.ended i ackedRec).stn i).state = .online := by rw [ended_stn_self]; exact hon
    have hend : ∃ t, exec (.writeAck i seq) s = .next t ∧ t.outside = (s.ended i ackedRec).outside := by
      cases ho : tr.owner with
      | none =>
        refine ⟨_, congrArg Host.Outcome.next (htaken.trans (endTransaction_answered_orphan nofun hup ho)), ?_⟩
        rw [hq]
        exact (grant_outside _ _).trans (congrArg State.outside (linkEffects_write i b o ws .ack s))
      | some u =>
        refine ⟨_, congrArg Host.Outcome.next (htaken.trans (endTransaction_answered nofun hup ho)), ?_⟩
        rw [hq]
        have hx := linkEffects_write i b o ws .ack s
        exact (congrArg (fun z => (ownerResult i u (.write b o ws) (.reply .ack) z).outside) hx).trans
          (ownerResult_outside hstate)
    obtain ⟨t, hex, hout⟩ := hend
    refine ⟨t, hex, ?_, ?_, ?_⟩
    · rw [expected_of_outside hout, ended_stn_self]
      rfl
    · rw [missed_of_outside hout, ended_stn_self]
      rfl
    · rw [uncertain_of_outside hout, ended_stn_self]
      rfl
  · intro i p seq b o ws op s ha hon hs hw he
    exact writeAck_relay i p seq b o ws op s ha hon hs hw he
  · intro i seq b o ws st s ha hon happ hstep hst done acked sent
    have hdone : done = stepAdvance st s.changeover.done ws.length := by cases st <;> rfl
    obtain ⟨hfail, hmore, hwhole⟩ := writeAck_step i seq b o ws st s ha hon hstep hst
    refine ⟨hfail, fun block offset words hstop hnext => ?_, ?_⟩
    · rw [hdone] at hnext ⊢
      exact hmore block offset words hstop hnext
    · intro k hstop hwr hpos ended free asks
      rw [hdone] at hwr
      have hex := hwhole hstop hwr
      rw [← hdone] at hex
      obtain ⟨g, hg⟩ : ∃ g, g = Changeover.doneTo done := ⟨_, rfl⟩
      rw [← hg] at hex
      have hidle : ∀ j, free j → (s.stepEnded i ackedRec g).idleLink j := fun j hj =>
        stepEnded_idle ha.holder ha.waiters hj
      have hpos' : (s.stepEnded i ackedRec g).changeover.position = some k := by
        rw [stepEnded_changeover, hg]; exact hpos
      have hwork : (s.stepEnded i ackedRec g).changeover.work = s.changeover.work := by
        rw [stepEnded_changeover, hg]; rfl
      refine ⟨fun w hw hwon => ?_, fun w block offset words hlen hw hwon hfree hnext => ?_⟩
      · have hlt : k + 1 < s.changeover.work.length := (List.getElem?_eq_some_iff.mp hw).1
        have hnext := nextStep_next hpos' (by rw [hwork]; exact hlt)
        have hwstep : (modCh (Changeover.at (k + 1)) (s.stepEnded i ackedRec g)).changeover.step = some w := by
          show (s.stepEnded i ackedRec g).changeover.work[k + 1]? = some w
          rw [hwork, hw]
        have happ' : (modCh (Changeover.at (k + 1)) (s.stepEnded i ackedRec g)).changeover.state = .applying := by
          show (s.stepEnded i ackedRec g).changeover.state = .applying
          rw [stepEnded_changeover, hg]
          exact happ
        have hwon' := stepEnded_online (i := i) (g := g) countsOnly_acked hwon
        refine ⟨fun hfree => ?_, fun hne hocc => ?_⟩
        · have hbegin := beginStep_applying happ' hwstep hwon' (hidle w.station hfree)
          obtain ⟨h1, h2⟩ := asked_after_step (g := g) countsOnly_acked Changeover.checking
            (Changeover.at (k + 1)) ha.holder ha.waiters w.station .state
          refine ⟨_, ⟨hex.trans (congrArg _ (hnext.trans hbegin)), step_ended (s := s) (i := i)
            (asked_worksOn _ _ _ _ _) (asked_ports _ _ _ _ _)⟩, ⟨h1, h2⟩, ?_⟩
          · show Changeover.checking (Changeover.at (k + 1) (s.stepEnded i ackedRec g).changeover) = _
            rw [stepEnded_changeover, hg]
            rfl
        · have hocc' : (modCh (Changeover.at (k + 1)) (s.stepEnded i ackedRec g)).occupied w.station := by
            rw [State.occupied, modCh_link, stepEnded_link ha.holder ha.waiters, if_neg hne]
            exact hocc
          have hbegin := beginStep_waits hwstep hwon' hocc'
          refine ⟨_, ⟨hex.trans (congrArg _ (hnext.trans hbegin)), step_ended (s := s) (i := i)
            (waiting_worksOn _ _ _ _) (waiting_ports _ _ _ _)⟩, ?_, fun x hx => ?_, fun x => ?_, ?_⟩
          · rw [addWaiter, State.modLink_stn, modCh_stn, modCh_stn, stepEnded_stn, if_pos rfl]
            rfl
          · rw [addWaiter, State.modLink_stn, modCh_stn, modCh_stn, stepEnded_stn, if_neg hx]
          · by_cases hxw : x = w.station
            · subst hxw
              rw [if_pos rfl, addWaiter, link_modLink_self, modCh_link, modCh_link, stepEnded_link ha.holder ha.waiters,
                if_neg hne]
            · rw [if_neg hxw, addWaiter, link_modLink_ne _ _ (Ne.symm hxw), modCh_link, modCh_link,
                stepEnded_link ha.holder ha.waiters]
          · show Changeover.fresh (Changeover.at (k + 1) (s.stepEnded i ackedRec g).changeover) = _
            rw [stepEnded_changeover, hg]
            rfl
      · have happ' : (s.stepEnded i ackedRec g).changeover.state = .applying := by rw [stepEnded_changeover, hg]; exact happ
        have hnextStep := nextStep_verify hpos' (by rw [hwork]; exact hlen) happ'
        have hwstep : (modCh Changeover.verifyingFrom (s.stepEnded i ackedRec g)).changeover.step = some w := by
          show (s.stepEnded i ackedRec g).changeover.work[0]? = some w
          rw [hwork, hw]
        have hread : stepRead (modCh Changeover.verifyingFrom (s.stepEnded i ackedRec g)) w 0
            = some (block, offset, words.length) := by
          refine stepRead_of_nextWrite hnext (worksOn_stepEnded s i ackedRec g).images (worksOn_stepEnded s i ackedRec g).params ?_
          rw [modCh_stn, stepEnded_stn]
          split <;> rfl
        have hbegin := beginStep_verifying (s := modCh Changeover.verifyingFrom (s.stepEnded i ackedRec g)) rfl hwstep
          (stepEnded_online countsOnly_acked hwon) (hidle w.station hfree) hread
        obtain ⟨h1, h2⟩ := asked_after_step (g := g) countsOnly_acked Changeover.reading
          Changeover.verifyingFrom ha.holder ha.waiters w.station (.read block offset words.length)
        refine ⟨_, ⟨hex.trans (congrArg _ (hnextStep.trans hbegin)), step_ended (s := s) (i := i)
          (asked_worksOn _ _ _ _ _) (asked_ports _ _ _ _ _)⟩, ⟨h1, h2⟩, ?_⟩
        · show Changeover.reading (Changeover.verifyingFrom (s.stepEnded i ackedRec g).changeover) = _
          rw [stepEnded_changeover, hg]
          rfl

end Sys2Proof.Machine
end

section
/-! SUPPORT. The values a verified relay or a finished operation takes in, and what the audit expects then. -/

namespace Sys2Proof.Machine

open Sys2Proof

variable {s t : State} {i j : Station} {e : AuditEntry} {vs : List (Nat × Int)} {ps ps' : List (Nat × Param)}
  {g : Int → Param → Param} {ims : List Image} {m : Nat}

/-- An entry after values of the parameters `idxs` have been taken in (R120). -/
def AuditEntry.recomputed (idxs : List Nat) (ps : List (Nat × Param)) (ims : List Image) (e : AuditEntry) : AuditEntry :=
  if e.cls = some .tunable ∧ idxs.any (fun k => match tableGet ps k with
      | some p => e.contains p
      | none => false)
  then { e with expected := tunablePrint ps ims e } else e

/-- The state in which each value of a list has been taken in by its parameter, and the expectations follow (R71, R73). -/
def State.valued (s : State) (vs : List (Nat × Int)) (g : Int → Param → Param) : State :=
  recompute (vs.map (fun c => c.1)) { s with params := vs.foldl (fun ps c => tableMod ps c.1 (g c.2)) s.params }

theorem takeChanges_eq (vs : List (Nat × Int)) (s : State) :
    takeChanges vs s = s.valued vs (fun a p => p.change a s.guardTime) := rfl

theorem commitValues_eq (vs : List (Nat × Int)) (s : State) : commitValues vs s = s.valued vs (fun v p => p.commit v) := rfl

@[simp] theorem valued_guardTime : (s.valued vs g).guardTime = s.guardTime := rfl
@[simp] theorem valued_stage : (s.valued vs g).stage = s.stage := rfl
@[simp] theorem valued_portMap : (s.valued vs g).portMap = s.portMap := rfl
@[simp] theorem valued_images : (s.valued vs g).images = s.images := rfl
@[simp] theorem valued_recipes : (s.valued vs g).recipes = s.recipes := rfl
@[simp] theorem valued_sched : (s.valued vs g).sched = s.sched := rfl
@[simp] theorem valued_activeFormat : (s.valued vs g).activeFormat = s.activeFormat := rfl
@[simp] theorem valued_changeover : (s.valued vs g).changeover = s.changeover := rfl
@[simp] theorem valued_events : (s.valued vs g).events = s.events := rfl
@[simp] theorem valued_ports : (s.valued vs g).ports = s.ports := rfl
@[simp] theorem valued_port (p : Port) : (s.valued vs g).port p = s.port p := rfl
@[simp] theorem valued_stn (j : Station) : (s.valued vs g).stn j = s.stn j := rfl
@[simp] theorem valued_link (j : Station) : (s.valued vs g).link j = s.link j := rfl
@[simp] theorem valued_engp (d : EngId) : (s.valued vs g).engp d = s.engp d := rfl

theorem valued_params_of_mem {k : Nat} {v : Int} (hvs : vs.Pairwise (fun a b => a.1 ≠ b.1)) (h : (k, v) ∈ vs) :
    tableGet (s.valued vs g).params k = (tableGet s.params k).map (g v) := tableGet_foldl_of_mem g vs s.params k v hvs h

theorem valued_params_of_not_mem {k : Nat} (h : ∀ v, (k, v) ∉ vs) :
    tableGet (s.valued vs g).params k = tableGet s.params k := tableGet_foldl_of_not_mem g vs s.params k h

theorem valued_audit : (s.valued vs g).audit
    = s.audit.map (AuditEntry.recomputed (vs.map (fun c => c.1)) (s.valued vs g).params s.images) := rfl

/-- Where a parameter's words lie. -/
def Param.place (p : Param) : Station × Nat × Nat := (p.station, p.block, p.offset)

/-- Two tables whose parameters lie at the same words. -/
def SamePlaces (ps ps' : List (Nat × Param)) : Prop := ∀ k, (tableGet ps' k).map Param.place = (tableGet ps k).map Param.place

theorem valued_places (hg : ∀ v p, (g v p).place = p.place) : SamePlaces s.params (s.valued vs g).params := fun k =>
  tableGet_foldl_kept g Param.place hg vs s.params k

/-- A TUNABLE entry with a word of a parameter that takes one of the values (R120). -/
def AuditEntry.touchedBy (e : AuditEntry) (ps : List (Nat × Param)) (vs : List (Nat × Int)) : Prop :=
  e.cls = some .tunable ∧ ∃ key v p, (key, v) ∈ vs ∧ tableGet ps key = some p ∧ p.station = e.station ∧ p.block = e.block
    ∧ p.offset < e.length

theorem contains_iff {p : Param} : e.contains p = true ↔ p.station = e.station ∧ p.block = e.block ∧ p.offset < e.length := by
  simp [AuditEntry.contains, and_assoc]

theorem contains_of_place {p p' : Param} (h : p'.place = p.place) : e.contains p' = e.contains p := by
  obtain ⟨hs, hb, ho⟩ : p'.station = p.station ∧ p'.block = p.block ∧ p'.offset = p.offset := by
    simpa [Param.place] using h
  simp only [AuditEntry.contains, hs, hb, ho]

/-- The test of `recompute`, on a table whose parameters lie at the same words. -/
theorem recomputed_test (h : SamePlaces ps ps') :
    (e.cls = some .tunable ∧ ((vs.map (fun c => c.1)).any fun k => match tableGet ps' k with
      | some p => e.contains p
      | none => false) = true) ↔ e.touchedBy ps vs := by
  refine and_congr_right fun _ => ?_
  rw [List.any_eq_true]
  constructor
  · rintro ⟨k, hk, hc⟩
    obtain ⟨⟨key, v⟩, hv, rfl⟩ := List.mem_map.mp hk
    have hkey := h key
    cases hp' : tableGet ps' key with
    | none => simp [hp'] at hc
    | some p' =>
      rw [hp'] at hc hkey
      obtain ⟨p, hp, hplace⟩ := Option.map_eq_some_iff.mp hkey.symm
      have hin : e.contains p = true := (contains_of_place hplace).trans hc
      exact ⟨key, v, p, hv, hp, contains_iff.mp hin⟩
  · rintro ⟨key, v, p, hv, hp, hin⟩
    refine ⟨key, List.mem_map.mpr ⟨(key, v), hv, rfl⟩, ?_⟩
    have hkey := h key
    rw [hp] at hkey
    obtain ⟨p', hp', hplace⟩ := Option.map_eq_some_iff.mp hkey
    rw [hp']
    exact (contains_of_place hplace).trans (contains_iff.mpr hin)

theorem recomputed_of_not_touched (h : SamePlaces ps ps') (ht : ¬ e.touchedBy ps vs) :
    e.recomputed (vs.map (fun c => c.1)) ps' ims = e := if_neg (fun hc => ht ((recomputed_test h).mp hc))

theorem recomputed_of_touched (h : SamePlaces ps ps') (ht : e.touchedBy ps vs) :
    e.recomputed (vs.map (fun c => c.1)) ps' ims = { e with expected := tunablePrint ps' ims e } :=
  if_pos ((recomputed_test h).mpr ht)

theorem recomputed_eq (idxs : List Nat) (ps : List (Nat × Param)) (ims : List Image) (e : AuditEntry) :
    e.recomputed idxs ps ims = { e with expected := (e.recomputed idxs ps ims).expected } := by
  unfold AuditEntry.recomputed
  split <;> rfl

theorem recomputed_of_not_tunable {idxs : List Nat} (h : e.cls ≠ some .tunable) : e.recomputed idxs ps ims = e :=
  if_neg (fun hc => h hc.1)

/-- What a TUNABLE entry expects: its image with the current values in place of parameter words (R119). -/
theorem tunablePrint_words {id : Nat} (hi : e.image = some id) :
    ∃ words : List Word, tunablePrint ps ims e = some (fingerprint words) ∧ words.length = (imageWords ims id).length
      ∧ ∀ (j : Nat) (w : Word), (imageWords ims id)[j]? = some w → words[j]? = some
          (match paramAt ps e.station e.block j with
           | some (_, p) => (p.encode p.current).getD (j - p.offset) w
           | none => w) := by
  refine ⟨overlay ps e.station e.block 0 (imageWords ims id), ?_, length_overlay _ _ _ _ _, fun j w hw => ?_⟩
  · simp only [tunablePrint, hi]
  · have h := overlay_getElem? ps e.station e.block 0 hw
    rw [Nat.zero_add] at h
    exact h

/-- An entry after an operation has ended with these values, whatever else its end does to the entry. -/
theorem EntryReleased.of_values {stations : List Station} {f : Nat} {everywhere : Bool}
    (hplaces : SamePlaces s.params t.params)
    (hres : e.cls = some .format → (everywhere = true ∨ e.station ∈ stations) →
      t.audit[m]? = some ((e.woken stations).resolve s.recipes s.images f))
    (hkept : ¬ (e.cls = some .format ∧ (everywhere = true ∨ e.station ∈ stations)) → t.audit[m]? = some
      { e.woken stations with expected := (e.recomputed (vs.map (fun c => c.1)) t.params s.images).expected }) :
    EntryReleased stations f everywhere vs s t m e := by
  refine EntryReleased.intro hres hkept (fun hn => ?_) (fun ht id hi => ?_)
  · rw [recomputed_of_not_touched hplaces hn]
  · rw [recomputed_of_touched hplaces ht]
    exact tunablePrint_words hi

/-- Values taken in with no hold to end (R71). -/
theorem entryReleased_valued (hplaces : SamePlaces s.params t.params)
    (ht : t.audit[m]? = some (e.recomputed (vs.map (fun c => c.1)) t.params s.images)) :
    EntryReleased [] f false vs s t m e := by
  refine EntryReleased.of_values hplaces (fun _ h => ?_) (fun _ => ?_)
  · simp at h
  · rw [ht, woken_of_not_mem List.not_mem_nil, ← recomputed_eq]

end Sys2Proof.Machine
end

section
/-! SUPPORT. The words read for a tool operation: it goes on, ends with them, or is verified by them. -/

namespace Sys2Proof.Machine

open Sys2Proof

variable {s t x : State} {i j : Station} {u : LinkUser} {seq : Byte} {q : StationRequest} {p : Port} {op : ToolOp}
  {ws : List Word}

/-! ### The end of a tool operation, whatever its slot held -/

theorem returnRelease_some {h : ReleaseHolder} (hp : s.portOf i = some p) :
    returnRelease i h s = if (s.port p).holder = some h then syncMonitor p (s.modPort p fun r => r.reasserted) else s := by
  simp only [returnRelease, hp]

theorem returned_modStn {f : StationRec → StationRec} {h : ReleaseHolder} (hf : ∀ r, (f r).state = r.state) :
    (s.modStn i f).returned i h = s.returned i h := by
  have hup : ∀ k, (s.modStn i f).up k = s.up k := by
    intro k
    by_cases hk : k = i
    · subst hk
      simp [State.up, hf]
    · simp [State.up, stn_modStn_ne _ _ (Ne.symm hk)]
  have hcomp : ∀ (r : InhibitPort → InhibitPort) (p : Port), ((s.modStn i f).modPort p r).comparing p
      = (s.modPort p r).comparing p := by
    intro r p
    have h1 : ∀ k, ((s.modStn i f).modPort p r).up k = (s.modPort p r).up k := hup
    simp only [State.comparing, State.modPort_portMap, State.modStn_portMap, h1, port_modPort_self, State.modStn_port]
  cases hp : s.portOf i with
  | none => simp [State.returned, returnRelease, hp]
  | some p =>
    rw [State.returned, State.returned, returnRelease_some hp, returnRelease_some (s := s.modStn i f) hp,
      State.modStn_port]
    by_cases hh : (s.port p).holder = some h
    · rw [if_pos hh, if_pos hh, syncMonitor, syncMonitor, hcomp]
      rfl
    · rw [if_neg hh, if_neg hh, State.modStn_ports]

theorem returnRelease_modStn {f : StationRec → StationRec} {h : ReleaseHolder} (hf : ∀ r, (f r).state = r.state) :
    returnRelease i h (s.modStn i f) = (returnRelease i h s).modStn i f := by
  rw [returnRelease_eq, returned_modStn hf, returnRelease_eq i h s]
  rfl

/-- What the slot holds at its end makes no difference. -/
theorem closed_modSlot (g : ToolOp → ToolOp) : (modSlot i g x).closed i = x.closed i := by
  rw [State.closed, State.gaveUp, modSlot, returnRelease_modStn (f := fun r => { r with slot := r.slot.map g }) fun _ => rfl]
  exact modStn_modStn (dropUser i .tool (returnRelease i (.tool i) x)) i (fun r => { r with slot := r.slot.map g })
    (fun r => { r with slot := none })

/-- The holder of a link for which nobody waits, whose transaction has ended, leaves it free. -/
theorem dropUser_ended {f : StationRec → StationRec} (hh : (s.link i).holder = some u) (hw : (s.link i).waiters = []) :
    dropUser i u (s.ended i f) = (s.modStn i f).freed i := by
  obtain ⟨drop, hdrop⟩ : ∃ drop : LinkRec → LinkRec, ∀ z, dropUser i u z = z.modLink i drop := ⟨_, fun _ => rfl⟩
  have hlink : drop { s.link i with inFlight := none } = { s.link i with holder := none, inFlight := none } := by
    have h := congrArg (fun z => z.link i) (hdrop (s.landed i))
    simp only [link_modLink_self] at h
    simpa [dropUser, State.landed, hh, hw] using h.symm
  have hall : s.ended i f = (s.modStn i f).modLink i fun l => { l with inFlight := none } := rfl
  rw [hdrop, hall, modLink_modLink]
  exact modLink_congr (s := s.modStn i f) hlink

/-- And the link does not pass. -/
theorem leave_ended {f : StationRec → StationRec} (hh : (s.link i).holder = some u) (hw : (s.link i).waiters = []) :
    leave i u (s.ended i f) = (s.modStn i f).freed i := by
  rw [leave, dropUser_ended hh hw]
  exact grant_no_waiters (by simp [State.freed, hw])

/-- An operation that holds no release leaves its slot and the link, and nothing else. -/
theorem ended_closed {f g : StationRec → StationRec} (hh : (s.link i).holder = some .tool) (hw : (s.link i).waiters = [])
    (hn : ∀ p : Port, (s.port p).holder ≠ some (.tool i)) (hg : ∀ r, g r = { f r with slot := none }) :
    (s.ended i f).closed i = (s.modStn i g).freed i := by
  have hret : returnRelease i (.tool i) (s.ended i f) = s.ended i f := returnRelease_none fun p _ => hn p
  have hstn : s.modStn i g = (s.modStn i f).modStn i (fun r => { r with slot := none }) := by
    rw [modStn_modStn]
    exact modStn_congr (hg _)
  rw [State.closed, State.gaveUp, hret, dropUser_ended hh hw, hstn]
  rfl

/-! ### The words of a READ -/

/-- The operation with more words read (R81, R94). -/
def ToolOp.heardMore (op : ToolOp) (ws : List Word) : ToolOp := { op with got := op.got ++ ws }

/-- The state of a tool operation whose READ has been answered. -/
def State.toolHeard (s : State) (i : Station) (op : ToolOp) : State := modSlot i (fun _ => op) (s.ended i heardRec)

theorem toolHeard_closed : (s.toolHeard i op).closed i = (s.ended i heardRec).closed i := closed_modSlot _

@[simp] theorem toolHeard_link_self : (s.toolHeard i op).link i = { s.link i with inFlight := none } := by
  simp [State.toolHeard]

/-- Words that do not complete the operation are kept, and its next READ goes out. -/
theorem toolResult_more {b o n : Nat} (hs : (s.stn i).slot = some op)
    (he : op.write = true ∧ op.expired = false ∨ op.write = false) (hlt : op.got.length + ws.length < op.count) :
    toolResult i (.read b o n) (.reply (.data ws)) (s.ended i heardRec)
      = sendToolRead i (op.heardMore ws) (if op.write = true then .readingBack else .reading)
          (s.toolHeard i (op.heardMore ws)) := by
  have hslot : ((s.ended i heardRec).stn i).slot = some op := by rw [ended_stn_self]; exact hs
  have hlen : (op.heardMore ws).got.length < op.count := by simpa [ToolOp.heardMore] using hlt
  rcases he with ⟨hw, he⟩ | hw
  · rw [toolResult_relay hslot hw, if_pos hw]
    exact (if_neg (by simp [he])).trans (if_pos hlen)
  · simp only [toolResult, hslot]
    rw [if_neg (by simp [hw]), if_neg (by simp [hw])]
    exact if_pos hlen

/-- Words that complete a tool READ are its answer (R94). -/
theorem toolResult_read {b o n : Nat} (hs : (s.stn i).slot = some op) (hw : op.write = false)
    (hall : op.got.length + ws.length = op.count) :
    toolResult i (.read b o n) (.reply (.data ws)) (s.ended i heardRec)
      = endToolRead i (op.heardMore ws) (.data op.block op.offset (op.got ++ ws)) (s.toolHeard i (op.heardMore ws)) := by
  have hslot : ((s.ended i heardRec).stn i).slot = some op := by rw [ended_stn_self]; exact hs
  have hlen : ¬ ((op.heardMore ws).got.length < op.count) := by simp [ToolOp.heardMore, hall]
  simp only [toolResult, hslot]
  rw [if_neg (by simp [hw])]
  exact if_neg hlen

/-- The relay as the words that complete its read-back end it (R81). -/
def readBackOutcome (op : ToolOp) (got : List Word) : RelayOutcome :=
  match lowestDiff op.offset op.words got with
  | some (o, w, r) => .verifyFailed o w r
  | none => .verified

theorem toolResult_readBack {b o n : Nat} (hs : (s.stn i).slot = some op) (hw : op.write = true)
    (he : op.expired = false) (hall : op.got.length + ws.length = op.count) :
    toolResult i (.read b o n) (.reply (.data ws)) (s.ended i heardRec)
      = endRelay i (op.heardMore ws) (readBackOutcome op (op.got ++ ws)) (s.toolHeard i (op.heardMore ws)) := by
  have hslot : ((s.ended i heardRec).stn i).slot = some op := by rw [ended_stn_self]; exact hs
  have hlen : ¬ ((op.heardMore ws).got.length < op.count) := by simp [ToolOp.heardMore, hall]
  rw [toolResult_relay hslot hw]
  refine (if_neg (by simp [he])).trans ((if_neg hlen).trans ?_)
  rw [readBackOutcome]
  cases h : lowestDiff op.offset op.words (op.got ++ ws) with
  | none => rfl
  | some d => rfl

/-- The reply a verified relay gives its tool (R83), its changes taken in (R71). -/
theorem relayReport_readBack (hr : op.readBack = true) :
    relayReport i op .verified s = deliver i op (if op.adjusted = true then .adjusted op.block op.offset op.words
      else .done op.block op.offset op.words) (s.valued op.changes (fun a p => p.change a s.guardTime)) := by
  simp only [relayReport, relayTrouble, relayReply, hr, and_self, if_true, takeChanges_eq]

/-! ### O44, of a tool operation -/

/-- The words that complete a tool READ. -/
theorem dataReply_read (i : Station) (seq : Byte) (b o n : Nat) (ws : List Word) (op : ToolOp) (s : State)
    (ha : Alone s i seq (.read b o n) .tool) (hon : (s.stn i).state = .online) (hlen : ws.length = n)
    (hs : (s.stn i).slot = some op) (hall : op.got.length + n = op.count) (h1 : (s.engp op.port).state = .waiting)
    (h2 : (s.engp op.port).attachment = op.attachment) (h3 : (s.engp op.port).awaited = some i)
    (hw : op.write = false) (hn : ∀ p : Port, (s.port p).holder ≠ some (.tool i)) :
    exec (.dataReply i seq ws) s = .next ((((s.modStn i (fun r => { r with missed := 0, slot := none })).freed i)
      |> sendTool op.port op.tag (.data op.block op.offset (op.got ++ ws))).modEng op.port (fun p =>
        { p with awaited := none, state := .ready })) := by
  have hres := toolResult_read (b := b) (o := o) (n := n) hs hw (ws := ws) (by rw [hlen]; exact hall)
  have hend : endToolRead i (op.heardMore ws) (.data op.block op.offset (op.got ++ ws)) (s.toolHeard i (op.heardMore ws))
      = deliver i (op.heardMore ws) (.data op.block op.offset (op.got ++ ws))
          ((s.modStn i (fun r => { r with missed := 0, slot := none })).freed i) := by
    rw [endToolRead_eq (by simp [ha.waiters]), toolHeard_closed,
      ended_closed (g := fun r => { r with missed := 0, slot := none }) ha.holder ha.waiters hn fun _ => rfl]
  refine (exec_dataReply ha (up_of_online hon) hlen).trans (congrArg _ ((hres.trans hend).trans ?_))
  exact if_pos ⟨h1, h2, h3⟩

/-- The words that complete a read-back and agree with what was written. -/
theorem dataReply_verified (i : Station) (seq : Byte) (b o n : Nat) (ws : List Word) (op : ToolOp) (s : State)
    (ha : Alone s i seq (.read b o n) .tool) (hon : (s.stn i).state = .online) (hlen : ws.length = n)
    (hs : (s.stn i).slot = some op) (hall : op.got.length + n = op.count) (h1 : (s.engp op.port).state = .waiting)
    (h2 : (s.engp op.port).attachment = op.attachment) (h3 : (s.engp op.port).awaited = some i)
    (hw : op.write = true) (he : op.expired = false) (hgot : op.got ++ ws = op.words)
    (hdistinct : op.changes.Pairwise (fun a b => a.1 ≠ b.1)) (hrb : op.readBack = true) :
    ∃ t tx, exec (.dataReply i seq ws) s = .next t ∧ (t.stn i).slot = none ∧ (t.link i).holder = none
      ∧ (∀ p : Port, s.portOf i = some p → (t.port p).holder ≠ some (.tool i))
      ∧ (t.engp op.port).state = .ready ∧ (t.engp op.port).tx = (s.engp op.port).tx ++ [tx] ∧ tx.tag = op.tag
      ∧ tx.reply = (if op.adjusted = true then .adjusted op.block op.offset op.words
          else .done op.block op.offset op.words)
      ∧ (∀ k a x, (k, a) ∈ op.changes → tableGet s.params k = some x →
          tableGet t.params k = some (x.change a s.guardTime) ∧ (x.change a s.guardTime).current = a)
      ∧ (∀ k, (∀ a, (k, a) ∉ op.changes) → tableGet t.params k = tableGet s.params k) ∧ t.events = s.events
      ∧ t.audit.length = s.audit.length
      ∧ (∀ (m : Nat) (e : AuditEntry), s.audit[m]? = some e →
          EntryReleased [] s.activeFormat false op.changes s t m e) := by
  have hres := toolResult_readBack (b := b) (o := o) (n := n) hs hw he (ws := ws) (by rw [hlen]; exact hall)
  have hsame : readBackOutcome op (op.got ++ ws) = .verified := by
    rw [readBackOutcome, hgot, lowestDiff_self]
  obtain ⟨y, hy⟩ : ∃ y, y = (s.ended i heardRec).closed i := ⟨_, rfl⟩
  obtain ⟨g, hg⟩ : ∃ g : Int → Param → Param, g = fun a p => p.change a s.guardTime := ⟨_, rfl⟩
  obtain ⟨reply, hreply⟩ : ∃ reply : ToolReply, reply = if op.adjusted = true then .adjusted op.block op.offset op.words
      else .done op.block op.offset op.words := ⟨_, rfl⟩
  have hgt : y.guardTime = s.guardTime := by rw [hy]; simp
  have heng : ∀ d, y.engp d = s.engp d := fun d => by rw [hy]; simp
  have hend : endRelay i (op.heardMore ws) .verified (s.toolHeard i (op.heardMore ws))
      = (y.valued op.changes g).modEng op.port (EngPort.answered op.tag reply) := by
    rw [endRelay_eq (by simp [ha.waiters]), toolHeard_closed, ← hy, relayReport_readBack (op := op.heardMore ws) hrb, hg,
      ← hgt, hreply]
    exact deliver_waiting (op := op.heardMore ws) (by rw [valued_engp, heng]; exact h1)
      (by rw [valued_engp, heng]; exact h2) (by rw [valued_engp, heng]; exact h3)
  rw [hsame] at hres
  have hex := (exec_dataReply ha (up_of_online hon) hlen).trans (congrArg _ (hres.trans hend))
  have hans := engp_answered (s := y.valued op.changes g) (op := op) (r := reply)
  rw [valued_engp, heng] at hans
  have hpar : y.params = s.params := by rw [hy]; simp
  have haud : y.audit = s.audit := by rw [hy]; simp
  have him : y.images = s.images := by rw [hy]; simp
  have hplace : ∀ v p, (g v p).place = p.place := by intro v p; rw [hg]; rfl
  have hplaces : SamePlaces s.params ((y.valued op.changes g).modEng op.port (EngPort.answered op.tag reply)).params := by
    rw [← hpar]
    exact valued_places hplace
  refine ⟨_, _, hex, ?_, ?_, fun p hp => ?_, congrArg EngPort.state hans, congrArg EngPort.tx hans, rfl, hreply,
    fun k a x hk hx => ⟨?_, rfl⟩, fun k hk => ?_, ?_, ?_, fun m e he => ?_⟩
  · rw [State.modEng_stn, valued_stn, hy, closed_stn_self]
  · rw [State.modEng_link, valued_link, hy, closed_link_idle (by simp [ha.holder]) (by simp [ha.waiters]) (by simp)]
  · rw [State.modEng_port, valued_port, hy, closed_port]
    exact returnRelease_holder hp
  · rw [State.modEng_params, valued_params_of_mem hdistinct hk, hpar, hx, hg]
    rfl
  · rw [State.modEng_params, valued_params_of_not_mem hk, hpar]
  · rw [State.modEng_events, valued_events, hy]
    simp
  · rw [State.modEng_audit, valued_audit, haud, List.length_map]
  · refine entryReleased_valued hplaces ?_
    rw [State.modEng_audit, valued_audit, haud, him, List.getElem?_map, he]
    rfl

/-- Words that do not complete a tool operation. -/
theorem dataReply_toolGoesOn (i : Station) (seq : Byte) (b o n : Nat) (ws : List Word) (op : ToolOp) (s : State)
    (ha : Alone s i seq (.read b o n) .tool) (hon : (s.stn i).state = .online) (hlen : ws.length = n)
    (hs : (s.stn i).slot = some op) (he : op.write = true ∧ op.expired = false ∨ op.write = false)
    (hlt : op.got.length + n < op.count) :
    ∃ t, exec (.dataReply i seq ws) s = .next t
      ∧ (t.stn i).slot = some
        { op with got := op.got ++ ws, phase := if op.write = true then .readingBack else .reading }
      ∧ ((t.link i).holder = some .tool ∧ (t.link i).inFlight = some
        { seq := (s.stn i).nextSeq, request := .read op.block (op.offset + (op.got.length + n))
            (min (s.stn i).wordsPerFrame (op.count - (op.got.length + n))), owner := some .tool,
          timeout := s.roster[i].replyTimeout })
      ∧ SameBut i s t ∧ t.events = s.events := by
  have hres := toolResult_more (b := b) (o := o) (n := n) hs he (ws := ws) (by rw [hlen]; exact hlt)
  have hslot : (s.stn i).slot ≠ none := by rw [hs]; exact nofun
  obtain ⟨phase, hphase⟩ : ∃ phase : Phase, phase = if op.write = true then .readingBack else .reading := ⟨_, rfl⟩
  obtain ⟨g1, g2, g3, g4⟩ := tool_goes_on (s := s) (i := i) countsOnly_heard (op.heardMore ws)
    (fun op => { op with phase := phase })
    (.read op.block (op.offset + (op.got.length + n)) (min (s.stn i).wordsPerFrame (op.count - (op.got.length + n)))) hslot
  have hsend : sendToolRead i (op.heardMore ws) phase (s.toolHeard i (op.heardMore ws))
      = modSlot i (fun op => { op with phase := phase }) (sendRequest i (.read op.block
        (op.offset + (op.got.length + n)) (min (s.stn i).wordsPerFrame (op.count - (op.got.length + n)))) .tool
        (s.toolHeard i (op.heardMore ws))) := by
    have hgot : (op.heardMore ws).got.length = op.got.length + n := by simp [ToolOp.heardMore, hlen]
    have hframe : ((s.toolHeard i (op.heardMore ws)).stn i).wordsPerFrame = (s.stn i).wordsPerFrame := by
      simp [State.toolHeard, countsOnly_heard.wordsPerFrame]
    simp only [sendToolRead, hgot, chunk, hframe]
    rfl
  rw [← hphase, hsend] at hres
  rw [← hphase]
  exact ⟨_, (exec_dataReply ha (up_of_online hon) hlen).trans (congrArg _ hres), g1,
    ⟨(congrArg LinkRec.holder g2).trans ha.holder, congrArg LinkRec.inFlight g2⟩, g3, g4⟩

end Sys2Proof.Machine
end

section
/-! SUPPORT. The words read for a channel, a check and a step being verified. -/

namespace Sys2Proof.Machine

open Sys2Proof

variable {s t x : State} {i j : Station} {u : LinkUser} {seq : Byte} {q : StationRequest} {st : Step} {ws : List Word}
  {c : ChanId} {w : AccessWork} {e : AuditEntry} {k : Nat}

theorem SameBut.ofSetChan {y : Channel} (h : SameBut i (s.setChan c y) t) : SameBut i s { t with channels := s.channels } :=
  ⟨(congrArg (fun z : State => { z with channels := s.channels }) h.1 :), h.2⟩

theorem SameBut.ofSetSched {y : Scheduler} (h : SameBut i (s.setSched y) t) : SameBut i s { t with sched := s.sched } :=
  ⟨(congrArg (fun z : State => { z with sched := s.sched }) h.1 :), h.2⟩

/-! ### Channels -/

/-- The work of a channel with more words read (R163). -/
def AccessWork.heardMore (w : AccessWork) (ws : List Word) : AccessWork := { w with got := w.got ++ ws }

/-- Words that do not complete a channel's work are kept, and its next READ goes out. -/
theorem accessResult_more (hw : (x.chan c).work = some w) (hlt : w.got.length + ws.length < w.count) :
    accessResult i c (.reply (.data ws)) x
      = sendAccessRead c (w.heardMore ws) (x.setChan c { state := .running, work := some (w.heardMore ws) }) := by
  simp only [accessResult, hw]
  exact if_pos (by simpa using hlt)

theorem accessResult_all (hw : (x.chan c).work = some w) (hall : w.got.length + ws.length = w.count) :
    accessResult i c (.reply (.data ws)) x = endAccess c (w.heardMore ws) none x := by
  simp only [accessResult, hw]
  exact if_neg (by simp [hall])

/-- The words that complete a DIRECT READ are its result (R163). -/
theorem dataReply_directRead (i : Station) (c : ChanId) (seq : Byte) (b o n : Nat) (ws : List Word) (w : AccessWork)
    (s : State) (ha : Alone s i seq (.read b o n) (.access c)) (hon : (s.stn i).state = .online) (hlen : ws.length = n)
    (hw : (s.chan c).work = some w) (hst : w.station = i) (hk : w.kind = .directRead) (him : w.image = none)
    (hall : w.got.length + n = w.count) :
    exec (.dataReply i seq ws) s = .next (post (.channel c) (.accessDone .directRead none)
      (((s.modStn i (fun r => { r with missed := 0 })).freed i).setChan c
        { state := .done, work := some { w with got := w.got ++ ws, result := some (.words (w.got ++ ws)) } })) := by
  subst hst
  refine (exec_dataReply ha (up_of_online hon) hlen).trans (congrArg _ ?_)
  refine (accessResult_all (x := s.ended w.station heardRec) hw (by rw [hlen]; exact hall)).trans ?_
  have hleave : leave (w.heardMore ws).station (.access c) (s.ended w.station heardRec)
      = (s.modStn w.station heardRec).freed w.station := leave_ended ha.holder ha.waiters
  have himage : (w.heardMore ws).image = none := him
  have hkind : (w.heardMore ws).kind = .directRead := hk
  simp only [endAccess, hleave, himage, hkind, hk, him]
  rfl

/-- Words that do not complete a channel's work. -/
theorem dataReply_accessGoesOn (i : Station) (c : ChanId) (seq : Byte) (b o n : Nat) (ws : List Word) (w : AccessWork)
    (s : State) (ha : Alone s i seq (.read b o n) (.access c)) (hon : (s.stn i).state = .online) (hlen : ws.length = n)
    (hw : (s.chan c).work = some w) (hst : w.station = i) (hlt : w.got.length + n < w.count) :
    ∃ t, exec (.dataReply i seq ws) s = .next t
      ∧ t.chan c = { state := .running, work := some { w with got := w.got ++ ws } }
      ∧ (∀ d, d ≠ c → t.chan d = s.chan d)
      ∧ ((t.link i).holder = some (.access c) ∧ (t.link i).inFlight = some
        { seq := (s.stn i).nextSeq, request := .read w.block (w.offset + (w.got.length + n))
            (min (s.stn i).wordsPerFrame (w.count - (w.got.length + n))), owner := some (.access c),
          timeout := s.roster[i].replyTimeout })
      ∧ SameBut i s { t with channels := s.channels } ∧ t.events = s.events := by
  subst hst
  have hres := accessResult_more (i := w.station) (x := s.ended w.station heardRec) hw (by rw [hlen]; exact hlt)
  have hframe : ((s.ended w.station heardRec).stn w.station).wordsPerFrame = (s.stn w.station).wordsPerFrame := by simp [heardRec]
  have hgot : (w.heardMore ws).got.length = w.got.length + n := by simp [AccessWork.heardMore, hlen]
  obtain ⟨y, hy⟩ : ∃ y, y = (s.ended w.station heardRec).setChan c { state := .running, work := some (w.heardMore ws) } :=
    ⟨_, rfl⟩
  have hsend : sendAccessRead c (w.heardMore ws) y = sendRequest w.station
      (.read w.block (w.offset + (w.got.length + n)) (min (s.stn w.station).wordsPerFrame (w.count - (w.got.length + n))))
      (.access c) y := by
    rw [sendAccessRead, hgot, hy]
    exact congrArg (fun m => sendRequest w.station (.read w.block (w.offset + (w.got.length + n))
      (min m (w.count - (w.got.length + n)))) (.access c) _) hframe
  rw [← hy, hsend] at hres
  refine ⟨_, (exec_dataReply ha (up_of_online hon) hlen).trans (congrArg _ hres), ?_, fun d hd => ?_, ?_, ?_, ?_⟩
  · rw [sendRequest_chan, hy]
    simp [AccessWork.heardMore]
  · rw [sendRequest_chan, hy]
    simp [Ne.symm hd]
  · rw [sendRequest_link_self, hy]
    simp [State.sending, ha.holder, heardRec]
  · have h1 := sameBut_sendRequest w.station (.read w.block (w.offset + (w.got.length + n))
      (min (s.stn w.station).wordsPerFrame (w.count - (w.got.length + n)))) (.access c) y
    rw [hy] at h1 ⊢
    exact (sameBut_ended w.station heardRec s).trans h1.ofSetChan
  · rw [sendRequest_events, hy]
    rfl

/-! ### Checks -/

/-- The check with more words read (R126, R127). -/
def Check.heardMore (c : Check) (ws : List Word) : Check := { c with got := c.got ++ ws }

/-- Words that do not complete a check's reading. -/
theorem dataReply_checkGoesOn (i : Station) (seq : Byte) (b o n : Nat) (ws : List Word) (c : Check) (e : AuditEntry)
    (s : State) (ha : Alone s i seq (.read b o n) .audit) (hon : (s.stn i).state = .online) (hlen : ws.length = n)
    (hc : s.sched.check = some c) (hst : c.station = i) (he : s.audit[c.entry]? = some e)
    (hlt : c.got.length + n < e.length) :
    ∃ t, exec (.dataReply i seq ws) s = .next t
      ∧ t.sched = { s.sched with check := some { c with got := c.got ++ ws } }
      ∧ ((t.link i).holder = some .audit ∧ (t.link i).inFlight = some
        { seq := (s.stn i).nextSeq, request := .read e.block (c.got.length + n)
            (min (s.stn i).wordsPerFrame (e.length - (c.got.length + n))), owner := some .audit,
          timeout := s.roster[i].replyTimeout })
      ∧ SameBut i s { t with sched := s.sched } ∧ t.events = s.events := by
  subst hst
  obtain ⟨y, hy⟩ : ∃ y, y = (s.ended c.station heardRec).setSched { s.sched with check := some (c.heardMore ws) } := ⟨_, rfl⟩
  have hgot : (c.heardMore ws).got.length = c.got.length + n := by simp [Check.heardMore, hlen]
  have hframe : (y.stn c.station).wordsPerFrame = (s.stn c.station).wordsPerFrame := by rw [hy]; simp [heardRec]
  have hmod : modCheck (fun c' => { c' with got := c.got ++ ws }) (s.ended c.station heardRec) = y := by
    rw [hy, modCheck, ended_sched, hc]
    rfl
  have hsend : sendCheckRead e (c.heardMore ws) c.phase y = modCheck (fun c' => { c' with phase := c.phase })
      (sendRequest c.station (.read e.block (c.got.length + n)
        (min (s.stn c.station).wordsPerFrame (e.length - (c.got.length + n)))) .audit y) := by
    rw [← hframe, ← hgot]
    rfl
  have hres : checkResult c.station (.reply (.data ws)) (s.ended c.station heardRec)
      = sendCheckRead e (c.heardMore ws) c.phase y := by
    simp only [checkResult, ended_sched, hc, ended_audit, he, ← hmod]
    exact if_pos (by simpa [hlen] using hlt)
  rw [hsend] at hres
  refine ⟨_, (exec_dataReply ha (up_of_online hon) hlen).trans (congrArg _ hres), ?_, ?_, ?_, ?_⟩
  · rw [modCheck, sendRequest_sched, hy]
    rfl
  · have hlink : ∀ (f : Check → Check) (z : State), (modCheck f z).link c.station = z.link c.station := fun _ _ => rfl
    rw [hlink, sendRequest_link_self, hy]
    simp [State.sending, ha.holder, heardRec]
  · have h1 := sameBut_sendRequest c.station (.read e.block (c.got.length + n)
      (min (s.stn c.station).wordsPerFrame (e.length - (c.got.length + n)))) .audit y
    rw [hy] at h1 ⊢
    exact (sameBut_ended c.station heardRec s).trans h1.ofSetSched
  · have hevents : ∀ (f : Check → Check) (z : State), (modCheck f z).events = z.events := fun _ _ => rfl
    rw [hevents, sendRequest_events, hy]
    rfl

/-! ### Steps being verified -/

/-- What the words of a READ make of the controller's record: a value more, or as many words more (R148). -/
def Changeover.read (st : Step) (ws : List Word) (c : Changeover) : Changeover :=
  match st with
  | .values _ _ => { c with done := c.done + 1 }
  | _ => c.heardWords ws

/-- The words of a value's READ are those it was encoded into (R148). -/
def ValueAgrees (s : State) (st : Step) (ws : List Word) : Prop :=
  match st with
  | .values _ items => ∃ key v p, items[s.changeover.done]? = some (key, v) ∧ tableGet s.params key = some p
      ∧ ws = p.encode v
  | _ => True

/-- The words of a block or restore read whole are those written (R148, R154). -/
def WholeAgrees (s : State) (st : Step) (got : List Word) : Prop :=
  match st with
  | .block _ _ _ im => imagePrint s.images im = some (fingerprint got)
  | .values _ _ => True
  | .restore _ _ all => got = all

/-- The next WRITE is the same wherever the tables and the station's frames are. -/
theorem NextWrite.congr {done block offset : Nat} {words : List Word} (hn : NextWrite s st done block offset words)
    (hi : x.images = s.images) (hp : x.params = s.params)
    (hw : (x.stn st.station).wordsPerFrame = (s.stn st.station).wordsPerFrame) : NextWrite x st done block offset words := by
  cases st with
  | values k items =>
    obtain ⟨key, v, p, hitem, hparam, hrest⟩ := hn
    exact ⟨key, v, p, hitem, by rw [hp]; exact hparam, hrest⟩
  | block k b pass im =>
    obtain ⟨hb, ho, hne, hwords⟩ := hn
    exact ⟨hb, ho, hne, by rw [hi]; exact hwords.trans (congrArg (fun m => List.take m _) hw.symm)⟩
  | restore k b all =>
    obtain ⟨hb, ho, hne, hwords⟩ := hn
    exact ⟨hb, ho, hne, hwords.trans (congrArg (fun m => List.take m _) hw.symm)⟩

/-- A step being verified with words left to read goes on reading. -/
theorem stepRead?_more {block offset : Nat} {words : List Word} (hv : ValueAgrees x st ws)
    (hn : NextWrite x st (x.changeover.read st ws).done block offset words) :
    stepRead? st ws x = readNext st (modCh (Changeover.read st ws) x) := by
  cases st with
  | values k items =>
    obtain ⟨key, v, p, hitem, hparam, hwords⟩ := hv
    simp only [stepRead?, stepWrite, hitem, hparam]
    exact if_pos hwords
  | block k b pass im =>
    obtain ⟨-, hoff, hne, hws⟩ := hn
    have hlt : x.changeover.done + ws.length < (imageWords x.images im).length := by
      refine Nat.lt_of_not_le fun hle => hne (hws.trans ?_)
      exact (congrArg (List.take _) (List.drop_eq_nil_of_le hle)).trans List.take_nil
    exact if_pos hlt
  | restore k b all =>
    obtain ⟨-, hoff, hne, hws⟩ := hn
    have hlt : x.changeover.done + ws.length < all.length := by
      refine Nat.lt_of_not_le fun hle => hne (hws.trans ?_)
      exact (congrArg (List.take _) (List.drop_eq_nil_of_le hle)).trans List.take_nil
    exact if_pos hlt

theorem readNext_eq {done block offset : Nat} {words : List Word} (hn : NextWrite x st done block offset words)
    (hd : x.changeover.done = done) : readNext st x = modCh (fun c => { c with phase := .reading })
      (sendRequest st.station (.read block offset words.length) .changeover x) := by
  have hr : stepRead x st x.changeover.done = some (block, offset, words.length) := by
    rw [hd]
    exact stepRead_of_nextWrite hn rfl rfl rfl
  rw [readNext, hr]

/-- A step verified whole ends. -/
theorem stepRead?_whole (hv : ValueAgrees x st ws) (hw : WrittenWhole x st (x.changeover.read st ws).done)
    (hg : WholeAgrees x st (x.changeover.read st ws).got) :
    stepRead? st ws x = finishStep st (modCh (Changeover.read st ws) x) := by
  cases st with
  | values k items =>
    obtain ⟨key, v, p, hitem, hparam, hwords⟩ := hv
    have hwrite : stepWrite (modCh (Changeover.read (.values k items) ws) x) (.values k items)
        (modCh (Changeover.read (.values k items) ws) x).changeover.done = none := stepWrite_of_whole (s := x) hw rfl
    have hnext : readNext (.values k items) (modCh (Changeover.read (.values k items) ws) x)
        = finishStep (.values k items) (modCh (Changeover.read (.values k items) ws) x) := by
      rw [readNext, stepRead, hwrite]
    simp only [stepRead?, stepWrite, hitem, hparam]
    exact (if_pos hwords).trans hnext
  | block k b pass im =>
    have hge : ¬ (x.changeover.done + ws.length < (imageWords x.images im).length) := Nat.not_lt.mpr hw
    exact (if_neg hge).trans (if_pos hg)
  | restore k b all =>
    have hge : ¬ (x.changeover.done + ws.length < all.length) := Nat.not_lt.mpr hw
    have hdiff : lowestDiff 0 all (x.changeover.got ++ ws) = none := by
      have hgot : x.changeover.got ++ ws = all := hg
      rw [hgot, lowestDiff_self]
    refine (if_neg hge).trans ?_
    simp only [hdiff]
    rfl

theorem exec_dataReply_step {b o n : Nat} (ha : Alone s i seq (.read b o n) .changeover)
    (hon : (s.stn i).state = .online) (hlen : ws.length = n) (hstep : s.changeover.step = some st) :
    exec (.dataReply i seq ws) s = .next (stepRead? st ws (s.ended i heardRec)) := by
  refine (exec_dataReply ha (up_of_online hon) hlen).trans (congrArg _ ?_)
  have hs' : (s.ended i heardRec).changeover.step = some st := hstep
  simp only [ownerResult, stepResult, hs']

/-- The record of a step whose next words are asked for. -/
def Changeover.readMore (c : Changeover) : Changeover := { c with phase := .reading }

/-- Words that do not complete a step being verified. -/
theorem dataReply_stepGoesOn {b o n block offset : Nat} {words : List Word} (ha : Alone s i seq (.read b o n) .changeover)
    (hon : (s.stn i).state = .online) (hlen : ws.length = n) (hstep : s.changeover.step = some st) (hst : st.station = i)
    (hv : ValueAgrees s st ws) (hn : NextWrite s st (s.changeover.read st ws).done block offset words) :
    ∃ t, exec (.dataReply i seq ws) s = .next t
      ∧ ((t.link i).holder = some .changeover ∧ (t.link i).inFlight = some
        { seq := (s.stn i).nextSeq, request := .read block offset words.length, owner := some .changeover,
          timeout := s.roster[i].replyTimeout })
      ∧ t.changeover = (s.changeover.read st ws).readMore
      ∧ SameBut i s { t with changeover := s.changeover } ∧ t.events = s.events := by
  subst hst
  have hframe : ((s.ended st.station heardRec).stn st.station).wordsPerFrame = (s.stn st.station).wordsPerFrame := by
    simp [heardRec]
  have hn' : ∀ z : State, z.images = s.images → z.params = s.params →
      (z.stn st.station).wordsPerFrame = (s.stn st.station).wordsPerFrame →
      NextWrite z st (s.changeover.read st ws).done block offset words := fun z => hn.congr
  have hread := (stepRead?_more (x := s.ended st.station heardRec) hv (hn' _ rfl rfl hframe)).trans
    (readNext_eq (x := modCh (Changeover.read st ws) (s.ended st.station heardRec)) (hn' _ rfl rfl hframe) rfl)
  obtain ⟨h1, -, h3, h4, h5⟩ := step_goes_on (s := s) (i := st.station) Changeover.readMore (Changeover.read st ws)
    countsOnly_heard (.read block offset words.length)
  exact ⟨_, (exec_dataReply_step ha hon hlen hstep).trans (congrArg _ hread),
    ⟨(congrArg LinkRec.holder h3).trans ha.holder, congrArg LinkRec.inFlight h3⟩, h1, h5, h4⟩

/-- A step verified whole gives up its link, and the next one, or the end, follows (R148). -/
theorem exec_dataReply_stepWhole {b o n : Nat} (ha : Alone s i seq (.read b o n) .changeover)
    (hon : (s.stn i).state = .online) (hlen : ws.length = n) (hstep : s.changeover.step = some st) (hst : st.station = i)
    (hv : ValueAgrees s st ws) (hw : WrittenWhole s st (s.changeover.read st ws).done)
    (hg : WholeAgrees s st (s.changeover.read st ws).got) :
    exec (.dataReply i seq ws) s = .next (nextStep (s.stepEnded i heardRec (Changeover.read st ws))) := by
  subst hst
  refine (exec_dataReply_step ha hon hlen hstep).trans (congrArg _ ?_)
  refine (stepRead?_whole (x := s.ended st.station heardRec) hv hw hg).trans ?_
  exact finishStep_eq (s := modCh (Changeover.read st ws) (s.ended st.station heardRec)) (by simp [ha.waiters])

/-- The first READ of the next step, once one has been verified whole. -/
theorem dataReply_nextStep {b o n block offset : Nat} {words : List Word} {w : Step}
    (ha : Alone s i seq (.read b o n) .changeover) (hon : (s.stn i).state = .online) (hlen : ws.length = n)
    (hver : s.changeover.state = .verifying) (hstep : s.changeover.step = some st) (hst : st.station = i)
    (hv : ValueAgrees s st ws) (hw : WrittenWhole s st (s.changeover.read st ws).done)
    (hg : WholeAgrees s st (s.changeover.read st ws).got) (hpos : s.changeover.position = some k)
    (hnext : s.changeover.work[k + 1]? = some w) (hwon : (s.stn w.station).state = .online)
    (hfree : w.station = i ∨ (s.link w.station).holder = none ∧ (s.link w.station).waiters = []
      ∧ (s.link w.station).inFlight = none)
    (hnone : ∀ p : Port, (s.port p).holder ≠ some .changeover) (hn : NextWrite s w 0 block offset words) :
    ∃ t, exec (.dataReply i seq ws) s = .next t
      ∧ ((t.link w.station).holder = some .changeover ∧ (t.link w.station).inFlight = some
        { seq := (s.stn w.station).nextSeq, request := .read block offset words.length, owner := some .changeover,
          timeout := s.roster[w.station].replyTimeout })
      ∧ (w.station ≠ i → (t.link i).holder = none ∧ (t.link i).inFlight = none)
      ∧ t.changeover = { s.changeover with position := some (k + 1), done := 0, got := [], phase := .reading }
      ∧ t.events = s.events
      ∧ { t with stations := s.stations, links := s.links, changeover := s.changeover } = s := by
  obtain ⟨g, hgr⟩ : ∃ g, g = Changeover.read st ws := ⟨_, rfl⟩
  have hex := exec_dataReply_stepWhole ha hon hlen hstep hst hv hw hg
  rw [← hgr] at hex
  have hkept : { g s.changeover with done := 0, got := [] } = { s.changeover with done := 0, got := [] } := by
    rw [hgr]
    cases st <;> rfl
  have hstate : (s.stepEnded i heardRec g).changeover.state = .verifying := by
    rw [stepEnded_changeover]
    exact (congrArg Changeover.state hkept).trans hver
  have hpos' : (s.stepEnded i heardRec g).changeover.position = some k := by
    rw [stepEnded_changeover]
    exact (congrArg Changeover.position hkept).trans hpos
  have hwork : (s.stepEnded i heardRec g).changeover.work = s.changeover.work := by
    rw [stepEnded_changeover]
    exact (congrArg Changeover.work hkept :)
  have hlt : k + 1 < s.changeover.work.length := (List.getElem?_eq_some_iff.mp hnext).1
  have hbegun := nextStep_next hpos' (by rw [hwork]; exact hlt)
  have hwstep : (modCh (Changeover.at (k + 1)) (s.stepEnded i heardRec g)).changeover.step = some w := by
    show (s.stepEnded i heardRec g).changeover.work[k + 1]? = some w
    rw [hwork, hnext]
  have hread : stepRead (modCh (Changeover.at (k + 1)) (s.stepEnded i heardRec g)) w 0
      = some (block, offset, words.length) :=
    stepRead_of_nextWrite hn (worksOn_stepEnded s i heardRec g).images (worksOn_stepEnded s i heardRec g).params
      (stepEnded_wordsPerFrame countsOnly_heard)
  have hbegin := beginStep_verifying (s := modCh (Changeover.at (k + 1)) (s.stepEnded i heardRec g)) hstate hwstep
    (stepEnded_online countsOnly_heard hwon) (stepEnded_idle ha.holder ha.waiters hfree) hread
  obtain ⟨-, hlink⟩ := asked_after_step (g := g) countsOnly_heard Changeover.reading
    (Changeover.at (k + 1)) ha.holder ha.waiters w.station (.read block offset words.length)
  obtain ⟨hev, -, hother, hworks⟩ := step_ended (s := s) (i := i) (f := heardRec) (g := g)
    (asked_worksOn (u := .changeover) Changeover.reading (Changeover.at (k + 1)) w.station
      (.read block offset words.length) (s.stepEnded i heardRec g)) (asked_ports _ _ _ _ _)
  refine ⟨_, hex.trans (congrArg _ (hbegun.trans hbegin)), ?_, fun hne => ?_, ?_, hev, ?_⟩
  · rw [hlink, if_pos rfl]
    exact ⟨rfl, rfl⟩
  · rw [hlink, if_neg (Ne.symm hne), if_pos rfl]
    exact ⟨rfl, rfl⟩
  · show Changeover.reading (Changeover.at (k + 1) (s.stepEnded i heardRec g).changeover) = _
    rw [stepEnded_changeover]
    exact (congrArg (fun z : Changeover => { z with position := some (k + 1), phase := .reading }) hkept :)
  · obtain ⟨t, ht⟩ : ∃ t, t = modCh Changeover.reading ((modCh (Changeover.at (k + 1)) (s.stepEnded i heardRec g)).asks
      w.station (.read block offset words.length) .changeover) := ⟨_, rfl⟩
    rw [← ht] at hworks hother ⊢
    have hports : t.ports = s.ports := Vector.ext fun p hp => hother ⟨p, hp⟩ (.inr (hnone _))
    unfold WorksOn workMask at hworks
    rw [← hports] at hworks
    exact hworks

/-- Settles O44. -/
theorem dataReplyTaken : Obligations.DataReplyTaken := by
  refine ⟨?_, ?_, ?_⟩
  · intro i seq b o n ws op s ha hon hlen hs hall h1 h2 h3
    exact ⟨fun hw hn => dataReply_read i seq b o n ws op s ha hon hlen hs hall h1 h2 h3 hw hn,
      fun hw he hgot hd hrb => dataReply_verified i seq b o n ws op s ha hon hlen hs hall h1 h2 h3 hw he hgot hd hrb⟩
  · intro i c seq b o n ws w s ha hon hlen hw hst hk him hall
    exact dataReply_directRead i c seq b o n ws w s ha hon hlen hw hst hk him hall
  · intro i seq b o n ws u s ha hon hlen asks frame
    refine ⟨fun op hu hs he hlt => ?_, fun c w hu hw hst hlt => ?_, fun c e hu hc hst he hlt => ?_,
      fun st done hu hver hstep hst hread => ?_⟩
    · subst hu
      exact dataReply_toolGoesOn i seq b o n ws op s ha hon hlen hs he hlt
    · subst hu
      exact dataReply_accessGoesOn i c seq b o n ws w s ha hon hlen hw hst hlt
    · subst hu
      exact dataReply_checkGoesOn i seq b o n ws c e s ha hon hlen hc hst he hlt
    · subst hu
      intro got
      have hdone : done = (s.changeover.read st ws).done := by
        cases st with
        | values k items => exact hread.1
        | block k b pass im => rw [hread, ← hlen]; rfl
        | restore k b all => rw [hread, ← hlen]; rfl
      have hgot : got = (s.changeover.read st ws).got := by cases st <;> rfl
      have hagrees : ValueAgrees s st ws := by
        cases st with
        | values k items => exact hread.2
        | block k b pass im => trivial
        | restore k b all => trivial
      have hrec : { s.changeover with done := done, got := got, phase := .reading } = (s.changeover.read st ws).readMore := by
        rw [hdone, hgot]
        cases st <;> rfl
      refine ⟨fun block offset words hn => ?_, fun k block offset w words hwhole hall hpos hnext hwon hfree hnone hn => ?_⟩
      · rw [hrec]
        rw [hdone] at hn
        exact dataReply_stepGoesOn ha hon hlen hstep hst hagrees hn
      · have hwhole' : WholeAgrees s st (s.changeover.read st ws).got := by
          rw [← hgot]
          cases st with
          | values k items => trivial
          | block k b pass im => exact hall
          | restore k b all => exact hall
        rw [hdone] at hwhole
        exact dataReply_nextStep ha hon hlen hver hstep hst hagrees hwhole hwhole' hpos hnext hwon hfree hnone hn

end Sys2Proof.Machine
end

section
/-! SUPPORT. A relay in trouble, and the ends of a channel's work. -/

namespace Sys2Proof.Machine

open Sys2Proof

variable {s t x y : State} {i j : Station} {u : LinkUser} {seq : Byte} {q : StationRequest} {op : ToolOp} {ws : List Word}
  {c : ChanId} {w : AccessWork} {f : StationRec → StationRec} {o : RelayOutcome}

/-! ### What the end of a relay leaves -/

theorem closed_frame (i : Station) (s : State) :
    { s.closed i with stations := s.stations, links := s.links, ports := s.ports } = s := by
  rw [State.closed, State.gaveUp, returnRelease_eq]
  rfl

theorem sameBut_closed (i : Station) (f : StationRec → StationRec) (s : State) :
    SameBut i s { (s.ended i f).closed i with ports := s.ports } := by
  refine ⟨(congrArg (fun z : State => { z with stations := s.stations, links := s.links, events := s.events })
    (closed_frame i (s.ended i f)) :), fun j hj => ⟨?_, ?_⟩⟩
  · exact (closed_stn_ne hj).trans (ended_stn_ne hj)
  · exact (gaveUp_link_ne (s := s.ended i f) _ _ hj).trans (ended_link_ne hj)

/-- A state in which a relay has ended and its tool has been answered, with the scheduler and the events given. -/
def State.relayLeft (s : State) (i : Station) (f : StationRec → StationRec) (op : ToolOp) (reply : ToolReply) (v : Scheduler)
    (ev : List Event) : State :=
  ({ (s.ended i f).closed i with sched := v, events := ev } : State).modEng op.port (EngPort.answered op.tag reply)

/-- What that state has (R82, R83). -/
theorem relayLeft_spec (hh : (s.link i).holder = some .tool) (hw : (s.link i).waiters = []) (reply : ToolReply)
    (v : Scheduler) (ev : List Event) :
    ∃ tx : ToolTx, (s.relayLeft i f op reply v ev).stn i = { f (s.stn i) with slot := none }
      ∧ ((s.relayLeft i f op reply v ev).link i).holder = none ∧ ((s.relayLeft i f op reply v ev).link i).inFlight = none
      ∧ (∀ p : Port, s.portOf i = some p → (s.port p).holder = some (.tool i) →
          ((s.relayLeft i f op reply v ev).port p).driven = .asserted
          ∧ ((s.relayLeft i f op reply v ev).port p).holder = none
          ∧ ((s.relayLeft i f op reply v ev).port p).limitTimer = none
          ∧ ((s.relayLeft i f op reply v ev).port p).settleTimer = none)
      ∧ (∀ p : Port, s.portOf i ≠ some p ∨ (s.port p).holder ≠ some (.tool i) →
          (s.relayLeft i f op reply v ev).port p = s.port p)
      ∧ ((s.relayLeft i f op reply v ev).engp op.port).state = .ready
      ∧ ((s.relayLeft i f op reply v ev).engp op.port).awaited = none
      ∧ ((s.relayLeft i f op reply v ev).engp op.port).tx = (s.engp op.port).tx ++ [tx] ∧ tx.tag = op.tag
      ∧ tx.reply = reply ∧ (∀ e : EngId, e ≠ op.port → (s.relayLeft i f op reply v ev).engp e = s.engp e)
      ∧ (s.relayLeft i f op reply v ev).sched = v ∧ (s.relayLeft i f op reply v ev).events = ev
      ∧ SameBut i s { s.relayLeft i f op reply v ev with ports := s.ports, eng := s.eng, sched := s.sched } := by
  obtain ⟨y, hy⟩ : ∃ y, y = (s.ended i f).closed i := ⟨_, rfl⟩
  have heng : ∀ e, y.engp e = s.engp e := fun e => by rw [hy, closed_engp, ended_engp]
  have hstn : y.stn i = { f (s.stn i) with slot := none } := by rw [hy, closed_stn_self, ended_stn_self]
  have hlink : y.link i = { s.link i with holder := none, inFlight := none } := by
    rw [hy, closed_link_idle (by simp [hh]) (by simp [hw]) (by simp), ended_link_self]
  have hport : ∀ p, y.port p = (returnRelease i (.tool i) (s.ended i f)).port p := fun p => by rw [hy, closed_port]
  have hsame : SameBut i s { y with ports := s.ports } := by rw [hy]; exact sameBut_closed i f s
  have heq : y.eng = s.eng := (congrArg State.eng hsame.1 :)
  have hsched : y.sched = s.sched := (congrArg State.sched hsame.1 :)
  obtain ⟨t, ht⟩ : ∃ t, t = s.relayLeft i f op reply v ev := ⟨_, rfl⟩
  have hleft : t = ({ y with sched := v, events := ev } : State).modEng op.port (EngPort.answered op.tag reply) := by
    rw [ht, hy, State.relayLeft]
  have hans : t.engp op.port = (s.engp op.port).answered op.tag reply := by
    rw [hleft, engp_answered, ← heng]
    rfl
  rw [← ht]
  refine ⟨{ tag := op.tag, reply := reply, remaining := frameTime reply.body.length }, ?_, ?_, ?_, fun p hp hheld => ?_,
    fun p hn => ?_, ?_, ?_, ?_, rfl, rfl, fun e he => ?_, ?_, ?_, ?_⟩
  · rw [hleft, State.modEng_stn, ← hstn]
    rfl
  · rw [hleft, State.modEng_link]
    exact (congrArg LinkRec.holder hlink :)
  · rw [hleft, State.modEng_link]
    exact (congrArg LinkRec.inFlight hlink :)
  · have hpt : t.port p = (returnRelease i (.tool i) (s.ended i f)).port p := by rw [hleft, State.modEng_port, ← hport]; rfl
    rw [hpt]
    exact returnRelease_port_held (s := s.ended i f) hp hheld
  · have hpt : t.port p = (returnRelease i (.tool i) (s.ended i f)).port p := by rw [hleft, State.modEng_port, ← hport]; rfl
    rw [hpt]
    exact returnRelease_port_other (s := s.ended i f) hn
  · rw [hans]; rfl
  · rw [hans]; rfl
  · rw [hans]; rfl
  · rw [hleft, engp_modEng_ne _ _ (Ne.symm he), ← heng]
    rfl
  · rw [hleft]; rfl
  · rw [hleft]; rfl
  · have hframe : ({ y with eng := s.eng, sched := s.sched } : State) = y := by rw [← heq, ← hsched]
    rw [← hframe] at hsame
    rw [hleft]
    exact hsame

theorem relayReport_failed {cause : Cause} : relayReport i op (.failed cause) s = deliver i op (.failed op.block cause) s := by
  simp only [relayReport, relayTrouble, relayReply, reduceCtorEq, false_and, if_false]

/-- A relay that fails reports to its tool alone (R85, R86). -/
theorem endRelay_failed {cause : Cause} (hx : x.closed i = (s.ended i f).closed i) (hxw : (x.link i).waiters = [])
    (h1 : (s.engp op.port).state = .waiting) (h2 : (s.engp op.port).attachment = op.attachment)
    (h3 : (s.engp op.port).awaited = some i) :
    endRelay i op (.failed cause) x = s.relayLeft i f op (.failed op.block cause) s.sched s.events := by
  have hs : ((s.ended i f).closed i).sched = s.sched := by simp
  have he : ((s.ended i f).closed i).events = s.events := by simp
  rw [endRelay_eq hxw, hx, relayReport_failed, State.relayLeft, ← hs, ← he]
  exact deliver_waiting (by rw [closed_engp]; exact h1) (by rw [closed_engp]; exact h2) (by rw [closed_engp]; exact h3)

/-- A relay in trouble posts RELAY_TROUBLE, asks for a sweep in GUARDING, and reports to its tool (R82, R84). -/
theorem endRelay_troubled {d : Trouble} (hx : x.closed i = (s.ended i f).closed i) (hxw : (x.link i).waiters = [])
    (hf : CountsOnly f) (hon : (s.stn i).state = .online) (h1 : (s.engp op.port).state = .waiting)
    (h2 : (s.engp op.port).attachment = op.attachment) (h3 : (s.engp op.port).awaited = some i)
    (hd : relayTrouble op o = some d) (hne : o ≠ .verified) :
    endRelay i op o x = s.relayLeft i f op (relayReply op o)
      (if s.stage = .guarding then { s.sched with sweeps := queueSweep i s.sched.sweeps } else s.sched)
      (postEvent s.guardTime (.station i) (.relayTrouble d op.port op.block) s.events) := by
  obtain ⟨y, hy⟩ : ∃ y, y = (s.ended i f).closed i := ⟨_, rfl⟩
  have hs : y.sched = s.sched := by rw [hy]; simp
  have he : y.events = s.events := by rw [hy]; simp
  have hg : y.guardTime = s.guardTime := by rw [hy]; simp
  have hst : y.stage = s.stage := by rw [hy]; simp
  have hyon : y.online i = true := by
    refine online_of_state ?_
    rw [hy, closed_stn_self, ended_stn_self]
    exact (hf.state _).trans hon
  have heng : ∀ e, y.engp e = s.engp e := fun e => by rw [hy, closed_engp, ended_engp]
  have hsweep : requestSweep i y
      = y.setSched (if s.stage = .guarding then { s.sched with sweeps := queueSweep i s.sched.sweeps } else s.sched) := by
    by_cases hgu : s.stage = .guarding
    · rw [requestSweep_guarding i (hst.trans hgu), if_pos hgu, ← hs]
      rfl
    · rw [requestSweep_configure i (by rw [hst]; exact hgu), if_neg hgu, ← hs]
      rfl
  have hreport : relayReport i op o y = deliver i op (relayReply op o)
      (post (.station i) (.relayTrouble d op.port op.block) (requestSweep i y)) := by
    simp only [relayReport, hd, hne, false_and, if_false, hyon, if_true]
  rw [endRelay_eq hxw, hx, ← hy, hreport, hsweep, State.relayLeft, ← hy, ← he, ← hg]
  exact deliver_waiting (s := post (.station i) (.relayTrouble d op.port op.block) (y.setSched _))
    (by rw [post_engp, State.setSched_engp, heng]; exact h1) (by rw [post_engp, State.setSched_engp, heng]; exact h2)
    (by rw [post_engp, State.setSched_engp, heng]; exact h3)

/-! ### The results that end a relay -/

/-- The cause a relay names: EXPIRED once its release has expired (R87 to R89). -/
def ToolOp.causeOf (op : ToolOp) (c : Cause) : Cause := if op.expired = true then .expired else c

/-- A REJECT of a relay's transaction (R86, R87). -/
theorem relayResult_reject {why : RejectReason} (hq : (∃ b o ws, q = .write b o ws) ∨ ∃ b o n, q = .read b o n)
    (h : op.expired = true ∨ 0 < op.acked ∨ ∃ b o n, q = .read b o n) :
    relayResult i op q (.reject why) x = endRelay i op (.unconfirmed (op.causeOf (.reject why))) x := by
  rcases hq with ⟨b, o, ws, rfl⟩ | ⟨b, o, n, rfl⟩
  · simp only [relayResult, ToolOp.causeOf]
    by_cases he : op.expired = true
    · rw [if_pos he, if_pos he]
    · have hacked : op.acked ≠ 0 := by
        rcases h with h | h | ⟨b, o, n, h⟩
        · exact absurd h he
        · omega
        · cases h
      rw [if_neg he, if_neg he, if_neg hacked]
  · rfl

theorem relayResult_reject_first {why : RejectReason} (hq : ∃ b o ws, q = .write b o ws) (he : op.expired = false)
    (h : op.acked = 0) : relayResult i op q (.reject why) x = endRelay i op (.failed (.reject why)) x := by
  obtain ⟨b, o, ws, rfl⟩ := hq
  simp only [relayResult]
  rw [if_neg (by simp [he]), if_pos h]

/-- A timeout of a relay's transaction (R88). -/
theorem relayResult_noReply (hq : (∃ b o ws, q = .write b o ws) ∨ ∃ b o n, q = .read b o n) :
    relayResult i op q .noReply x = endRelay i op (.unconfirmed (op.causeOf .noReply)) x := by
  rcases hq with ⟨b, o, ws, rfl⟩ | ⟨b, o, n, rfl⟩ <;> rfl

/-- An answer to a relay whose release has expired (R89). -/
theorem relayResult_ack_expired {b o : Nat} (he : op.expired = true) :
    relayResult i op (.write b o ws) (.reply .ack) x
      = endRelay i (op.ackedMore ws.length) (.unconfirmed .expired) (modSlot i (fun _ => op.ackedMore ws.length) x) := by
  exact if_pos he

theorem relayResult_data_expired {b o n : Nat} (he : op.expired = true) :
    relayResult i op (.read b o n) (.reply (.data ws)) x
      = endRelay i (op.heardMore ws) (.unconfirmed .expired) (modSlot i (fun _ => op.heardMore ws) x) := by
  exact if_pos he

/-! ### The end of a channel's work -/

/-- The images when a channel's work ends (R114). -/
def imagesAfter (c : ChanId) (w : AccessWork) (failure : Option Cause) (ims : List Image) : List Image :=
  match w.image with
  | none => ims
  | some id => modImage ims id (Image.captureEnds c w.got failure)

/-- The record a channel's work leaves (R163). -/
def AccessWork.finished (w : AccessWork) : Option Cause → AccessWork
  | some f => { w with got := [], result := some (.failed f) }
  | none => { w with result := some (match w.kind with
      | .directRead => .words w.got
      | .capture => .complete) }

theorem endAccess_eq (c : ChanId) (w : AccessWork) (failure : Option Cause) (hy : leave w.station (.access c) x = y) :
    endAccess c w failure x = post (.channel c) (.accessDone w.kind failure)
      ({ y with images := imagesAfter c w failure y.images }.setChan c
        { state := .done, work := some (w.finished failure) }) := by
  unfold endAccess imagesAfter AccessWork.finished
  rw [hy]
  cases failure <;> cases w.image <;> rfl

/-- What the end of a channel's work leaves, its transaction ended with it. -/
theorem endAccess_spec {failure : Option Cause} (hst : w.station = i) (hh : (s.link i).holder = some (.access c))
    (hw : (s.link i).waiters = []) :
    let t := endAccess c w failure (s.ended i f)
    t.chan c = { state := .done, work := some (w.finished failure) } ∧ (∀ d, d ≠ c → t.chan d = s.chan d)
      ∧ t.stn i = f (s.stn i) ∧ (t.link i).holder = none ∧ (t.link i).inFlight = none
      ∧ t.images = imagesAfter c w failure s.images
      ∧ t.events = postEvent s.guardTime (.channel c) (.accessDone w.kind failure) s.events
      ∧ SameBut i s { t with images := s.images, channels := s.channels } := by
  intro t
  subst hst
  obtain ⟨y, hy⟩ : ∃ y, y = (s.modStn w.station f).freed w.station := ⟨_, rfl⟩
  have ht : t = post (.channel c) (.accessDone w.kind failure)
      ({ y with images := imagesAfter c w failure y.images }.setChan c
        { state := .done, work := some (w.finished failure) }) :=
    endAccess_eq c w failure ((leave_ended hh hw).trans hy.symm)
  have hstn : y.stn w.station = f (s.stn w.station) := by rw [hy]; exact stn_modStn_self s w.station f
  have hlink : y.link w.station = { s.link w.station with holder := none, inFlight := none } := by
    rw [hy, State.freed, link_modLink_self, State.modStn_link]
  have hsame : SameBut w.station s y := by
    rw [hy]
    exact ⟨rfl, fun j hj => ⟨stn_modStn_ne s f (Ne.symm hj), link_modLink_ne (s.modStn w.station f) _ (Ne.symm hj)⟩⟩
  have himages : y.images = s.images := (congrArg State.images hsame.1 :)
  have hchannels : y.channels = s.channels := (congrArg State.channels hsame.1 :)
  have hevents : y.events = s.events := by rw [hy]; rfl
  have htime : y.guardTime = s.guardTime := (congrArg State.guardTime hsame.1 :)
  rw [ht]
  refine ⟨?_, fun d hd => ?_, ?_, ?_, ?_, ?_, ?_, ?_⟩
  · simp
  · rw [post_chan, chan_setChan_ne _ _ (Ne.symm hd), State.chan, hchannels]
    rfl
  · rw [post_stn, State.setChan_stn, ← hstn]
    rfl
  · rw [post_link, State.setChan_link]
    exact (congrArg LinkRec.holder hlink :)
  · rw [post_link, State.setChan_link]
    exact (congrArg LinkRec.inFlight hlink :)
  · rw [post_images, State.setChan_images, himages]
  · rw [← hevents, ← htime]
    rfl
  · have hframe : ({ y with images := s.images, channels := s.channels } : State) = y := by rw [← himages, ← hchannels]
    rw [← hframe] at hsame
    exact hsame

/-- A failed capture leaves its image open and empty (R114). -/
theorem imagesAfter_failed (c : ChanId) (w : AccessWork) (cause : Cause) (ims : List Image) :
    imagesAfter c w (some cause) ims
      = ims.map (fun im => if w.image = some im.id ∧ im.capture = some c then { im with capture := none } else im) := by
  unfold imagesAfter
  cases h : w.image with
  | none => simp
  | some id =>
    refine List.map_congr_left fun im _ => ?_
    by_cases hid : im.id = id
    · subst hid
      simp [Image.captureEnds]
    · simp [hid, Ne.symm hid]

/-- A complete capture fills its image at once, with its fingerprint (R114, R115). -/
theorem imagesAfter_complete {id : Nat} {ims : List Image} (hid : w.image = some id)
    (hopen : ∀ im ∈ ims, im.id = id → im.capture = some c ∧ im.words = [] ∧ im.length = w.got.length) :
    imagesAfter c w none ims = ims.map (fun im => if im.id = id then
      { im with words := w.got, print := some (fingerprint w.got), capture := none } else im) := by
  unfold imagesAfter
  rw [hid]
  refine List.map_congr_left fun im him => ?_
  by_cases h : im.id = id
  · obtain ⟨hc, hwords, hlen⟩ := hopen im him h
    simp [h, Image.captureEnds, hc, Image.place, hwords, hlen]
  · simp [h]

/-! ### O45 -/

/-- Settles O45. -/
theorem relaysAndCapturesEnd : Obligations.RelaysAndCapturesEnd := by
  refine ⟨?_, ?_⟩
  · intro i seq q op s ha hon hs hw h1 h2 h3 ended heard unheard troubled writing reading unconfirmed
    have hup := up_of_online hon
    have hslot : ∀ {f : StationRec → StationRec}, CountsOnly f → ((s.ended i f).stn i).slot = some op := fun hf => by
      rw [ended_stn_self, hf.slot, hs]
    have fails : ∀ (command : Instr) (cause : Cause) (f : StationRec → StationRec) (record : StationRec), CountsOnly f →
        f (s.stn i) = record → exec command s = .next (endRelay i op (.failed cause) (s.ended i f)) →
        ended command record (.failed op.block cause) s.sched s.events := by
      rintro command cause f _ hf rfl hex
      rw [endRelay_failed rfl (by simp [ha.waiters]) h1 h2 h3] at hex
      obtain ⟨tx, hspec⟩ := relayLeft_spec (f := f) (op := op) ha.holder ha.waiters (.failed op.block cause) s.sched s.events
      exact ⟨_, tx, hex, hspec⟩
    have ends : ∀ (command : Instr) (o : RelayOutcome) (d : Trouble) (f : StationRec → StationRec) (record : StationRec)
        (op' : ToolOp) (x : State), CountsOnly f → f (s.stn i) = record →
        op'.port = op.port → op'.tag = op.tag → op'.attachment = op.attachment → op'.block = op.block →
        x.closed i = (s.ended i f).closed i → (x.link i).waiters = [] → relayTrouble op' o = some d → o ≠ .verified →
        exec command s = .next (endRelay i op' o x) → troubled command record (relayReply op' o) d := by
      rintro command o d f _ op' x hf rfl hport htag hatt hblock hx hxw hd hne hex
      rw [endRelay_troubled (op := op') hx hxw hf hon (by rw [hport]; exact h1) (by rw [hport, hatt]; exact h2)
        (by rw [hport]; exact h3) hd hne, hport, hblock] at hex
      obtain ⟨tx, hspec⟩ := relayLeft_spec (f := f) (op := op') ha.holder ha.waiters (relayReply op' o)
        (if s.stage = .guarding then { s.sched with sweeps := queueSweep i s.sched.sweeps } else s.sched)
        (postEvent s.guardTime (.station i) (.relayTrouble d op.port op.block) s.events)
      rw [hport, htag] at hspec
      exact ⟨_, tx, hex, hspec⟩
    have hends : ∀ (command : Instr) (cause : Cause) (f : StationRec → StationRec) (record : StationRec), CountsOnly f →
        f (s.stn i) = record → exec command s = .next (endRelay i op (.unconfirmed cause) (s.ended i f)) →
        unconfirmed command record cause op.acked := fun command cause f record hf hrec hex =>
      ends command (.unconfirmed cause) (.unconfirmed cause op.acked) f record op _ hf hrec rfl rfl rfl rfl rfl
        (by simp [ha.waiters]) rfl nofun hex
    refine ⟨?_, fun reason why hwhy => ⟨?_, ?_, ?_⟩, fun hm => ?_, ?_, ?_⟩
    · intro b o n d ws x y he hq hlen hall htake hx hy hxy
      subst hq
      have hdiff : readBackOutcome op (op.got ++ ws) = .verifyFailed (op.offset + d) x y := by
        rw [readBackOutcome, lowestDiff_eq_some htake hx hy hxy]
      have hres := toolResult_readBack (b := b) (o := o) (n := n) hs hw he (ws := ws) (by rw [hlen]; exact hall)
      rw [hdiff] at hres
      exact ends _ (.verifyFailed (op.offset + d) x y) (.verifyFailed (op.offset + d) x y) heardRec heard
        (op.heardMore ws) _ countsOnly_heard rfl rfl rfl rfl rfl toolHeard_closed (by simp [ha.waiters]) rfl nofun
        ((exec_dataReply ha hup hlen).trans (congrArg _ hres))
    · intro he hwr h0
      refine fails _ _ heardRec heard countsOnly_heard rfl ((exec_rejectReply ha hup hwhy).trans (congrArg _ ?_))
      exact (toolResult_relay (hslot countsOnly_heard) hw).trans (relayResult_reject_first hwr he h0)
    · intro he hwr
      have hcause : op.causeOf (.reject why) = .reject why := if_neg (by simp [he])
      refine hends _ _ heardRec heard countsOnly_heard rfl ((exec_rejectReply ha hup hwhy).trans (congrArg _ ?_))
      refine (toolResult_relay (hslot countsOnly_heard) hw).trans ?_
      rw [relayResult_reject (hwr.imp And.left id) (.inr (hwr.imp And.right id)), hcause]
    · intro he hwr
      have hcause : op.causeOf (.reject why) = .expired := if_pos he
      refine hends _ _ heardRec heard countsOnly_heard rfl ((exec_rejectReply ha hup hwhy).trans (congrArg _ ?_))
      refine (toolResult_relay (hslot countsOnly_heard) hw).trans ?_
      rw [relayResult_reject hwr (.inl he), hcause]
    · intro cause
      have hex : (writing ∨ reading) → exec (.replyTimeout i) s
          = .next (endRelay i op (.unconfirmed cause) (s.ended i (unheardRec q))) := fun hq =>
        (exec_replyTimeout ha hup hm).trans (congrArg _ ((toolResult_relay (hslot (countsOnly_unheard q)) hw).trans
          (relayResult_noReply hq)))
      refine ⟨fun hwr => ?_, fun hrd => ?_⟩
      · refine hends _ _ (unheardRec q) _ (countsOnly_unheard q) ?_ (hex (.inl hwr))
        obtain ⟨b, o, ws, rfl⟩ := hwr
        simp [unheardRec, StationRequest.isWrite, unheard]
      · refine hends _ _ (unheardRec q) _ (countsOnly_unheard q) ?_ (hex (.inr hrd))
        obtain ⟨b, o, n, rfl⟩ := hrd
        simp [unheardRec, StationRequest.isWrite, unheard]
    · intro b o ws he hq
      subst hq
      refine ends _ (.unconfirmed .expired) (.unconfirmed .expired (op.acked + ws.length)) ackedRec _ (op.ackedMore ws.length)
        _ countsOnly_acked rfl rfl rfl rfl rfl (closed_modSlot (fun _ => op.ackedMore ws.length)) (by simp [ha.waiters]) rfl
        nofun ((exec_writeAck ha hup).trans (congrArg _ ?_))
      exact (toolResult_relay (hslot countsOnly_acked) hw).trans (relayResult_ack_expired he)
    · intro b o n ws he hq hlen
      subst hq
      refine ends _ (.unconfirmed .expired) (.unconfirmed .expired op.acked) heardRec _ (op.heardMore ws)
        _ countsOnly_heard rfl rfl rfl rfl rfl (closed_modSlot (fun _ => op.heardMore ws)) (by simp [ha.waiters]) rfl
        nofun ((exec_dataReply ha hup hlen).trans (congrArg _ ?_))
      exact (toolResult_relay (hslot countsOnly_heard) hw).trans (relayResult_data_expired he)
  · intro i c seq b o n w s ha hon hwork hst ended failed
    have hup := up_of_online hon
    have fails : ∀ (command : Instr) (cause : Cause) (r : TxResult) (f : StationRec → StationRec) (missed : Nat),
        f (s.stn i) = { s.stn i with missed := missed } → (∀ ws, r = .reply (.data ws) → False) → r.cause = cause →
        exec command s = .next (accessResult i c r (s.ended i f)) → failed command missed cause := by
      rintro command _ r f missed hf hr rfl hex
      have hwork' : ((s.ended i f).chan c).work = some w := hwork
      have hres : accessResult i c r (s.ended i f) = endAccess c w (some r.cause) (s.ended i f) := by
        simp only [accessResult, hwork']
      obtain ⟨g1, g2, g3, g4, g5, g6, g7, g8⟩ := endAccess_spec (f := f) (failure := some r.cause) hst ha.holder ha.waiters
      exact ⟨_, hex.trans (congrArg _ hres), g1, g2, g3.trans hf, g4, g5, g6.trans (imagesAfter_failed _ _ _ _), g7, g8⟩
    refine ⟨fun ws id hlen hall hkind hid hopen => ?_, fun reason why hwhy => ?_, fun hm => ?_⟩
    · have hres := accessResult_all (i := i) (x := s.ended i heardRec) hwork (by rw [hlen]; exact hall)
      obtain ⟨g1, g2, g3, g4, g5, g6, g7, g8⟩ := endAccess_spec (f := heardRec) (failure := none)
        (w := w.heardMore ws) hst ha.holder ha.waiters
      refine ⟨_, (exec_dataReply ha hup hlen).trans (congrArg _ hres), g1.trans ?_, g2, g3, g4, g5, g6.trans ?_, g7, g8⟩
      · simp [AccessWork.finished, AccessWork.heardMore, hkind]
      · refine imagesAfter_complete (w := w.heardMore ws) hid fun im him h => ?_
        obtain ⟨k1, k2, k3⟩ := hopen im him h
        exact ⟨k1, k2, by rw [k3, ← hall, ← hlen]; simp [AccessWork.heardMore]⟩
    · exact fails _ _ (.reject why) heardRec 0 rfl nofun rfl (exec_rejectReply ha hup hwhy)
    · refine fails _ _ .noReply (unheardRec (.read b o n)) _ ?_ nofun rfl (exec_replyTimeout ha hup hm)
      simp [unheardRec, StationRequest.isWrite]

end Sys2Proof.Machine
end

section
/-! SUPPORT. The ends of a check. -/

namespace Sys2Proof.Machine

open Sys2Proof

variable {s t x y : State} {i j : Station} {seq : Byte} {q : StationRequest} {ws ref : List Word} {c : Check}
  {e : AuditEntry} {f : StationRec → StationRec} {r : CheckResult} {k : Nat} {fp : Fingerprint}

/-! ### What the end of a check leaves -/

/-- The result of a check as its entry takes it: none where it is to be discarded (R130). -/
def CheckResult.taken (c : Check) (r : CheckResult) : CheckResult := if c.discard then .nothing else r

/-- The record of a station whose check has ended (R127). -/
def StationRec.checked (r : CheckResult) (st : StationRec) : StationRec :=
  { st with sumUnreliable := st.sumUnreliable || decide (r = .sameUnreliable) }

/-- The state in which a check has ended with a result, before the next choice is made (R130). -/
def State.checked (s : State) (c : Check) (r : CheckResult) : State :=
  { s.modStn c.station (StationRec.checked r) with
    audit := s.audit.modify c.entry (fun e => e.after r s.guardTime)
    events := if (s.audit[c.entry]?).any (fun e => drifts e r) = true
      then postEvent s.guardTime (.station c.station) (.drift c.entry) s.events else s.events
    sched := { s.sched with check := none, sweeps := recordTaken c s.sched.sweeps } }

theorem chooseIfDue_paced (h : s.sched.paceTimer ≠ none) : chooseIfDue s = s := if_neg fun hc => h hc.2.2

/-- A check that ends while the pace timer runs. -/
theorem endCheck_eq (hc : s.sched.check = some c) (hy : leave c.station .audit s = y) (hp : y.sched.paceTimer ≠ none) :
    endCheck r s = y.checked c (r.taken c) := by
  obtain ⟨r', hr'⟩ : ∃ r', r' = r.taken c := ⟨_, rfl⟩
  have hr : (if c.discard then CheckResult.nothing else r) = r' := hr'.symm
  have hstn : (if r' = .sameUnreliable then y.modStn c.station (fun st => { st with sumUnreliable := true }) else y)
      = y.modStn c.station (StationRec.checked r') := by
    by_cases h : r' = .sameUnreliable
    · rw [if_pos h]
      exact modStn_congr (by simp [StationRec.checked, h])
    · rw [if_neg h, modStn_id]
      simp [StationRec.checked, h]
  rw [← hr']
  unfold endCheck
  simp only [hc, hy, hr, hstn]
  rw [chooseIfDue_paced]
  · unfold State.checked
    cases he : y.audit[c.entry]? with
    | none => simp [State.modEntry, he]
    | some e =>
      cases hd : drifts e r' with
      | true => simp [State.modEntry, he, hd, post]
      | false => simp [State.modEntry, he, hd]
  · cases he : y.audit[c.entry]? with
    | none => simpa [he] using hp
    | some e =>
      cases hd : drifts e r' with
      | true => simpa [he, hd] using hp
      | false => simpa [he, hd] using hp

/-- What a check leaves that ends with its transaction (R128 to R130). -/
theorem endCheck_spec (hc : s.sched.check = some c) (hst : c.station = i) (hsw : c.bySweep = false)
    (he : s.audit[c.entry]? = some e) (hp : s.sched.paceTimer ≠ none) (hh : (s.link i).holder = some .audit)
    (hw : (s.link i).waiters = []) :
    let t := endCheck r (s.ended i f)
    t.audit[c.entry]? = some (e.after (r.taken c) s.guardTime) ∧ (∀ j, j ≠ c.entry → t.audit[j]? = s.audit[j]?)
      ∧ t.sched = { s.sched with check := none } ∧ t.stn i = (f (s.stn i)).checked (r.taken c)
      ∧ (t.link i).holder = none ∧ (t.link i).inFlight = none
      ∧ t.events = (if drifts e (r.taken c) = true then postEvent s.guardTime (.station i) (.drift c.entry) s.events
          else s.events)
      ∧ SameBut i s { t with audit := s.audit, sched := s.sched } := by
  intro t
  subst hst
  obtain ⟨y, hy⟩ : ∃ y, y = (s.modStn c.station f).freed c.station := ⟨_, rfl⟩
  have hyp : y.sched.paceTimer ≠ none := by rw [hy]; exact hp
  have ht : t = y.checked c (r.taken c) := endCheck_eq hc ((leave_ended hh hw).trans hy.symm) hyp
  have hstn : y.stn c.station = f (s.stn c.station) := by rw [hy]; exact stn_modStn_self s c.station f
  have hlink : y.link c.station = { s.link c.station with holder := none, inFlight := none } := by
    rw [hy, State.freed, link_modLink_self, State.modStn_link]
  have hsame : SameBut c.station s y := by
    rw [hy]
    exact ⟨rfl, fun j hj => ⟨stn_modStn_ne s f (Ne.symm hj), link_modLink_ne (s.modStn c.station f) _ (Ne.symm hj)⟩⟩
  have haudit : y.audit = s.audit := (congrArg State.audit hsame.1 :)
  have hsched : y.sched = s.sched := (congrArg State.sched hsame.1 :)
  have htime : y.guardTime = s.guardTime := (congrArg State.guardTime hsame.1 :)
  have hevents : y.events = s.events := by rw [hy]; rfl
  have hsweeps : recordTaken c s.sched.sweeps = s.sched.sweeps := by
    cases s.sched.sweeps with
    | nil => rfl
    | cons q qs => exact if_neg (by simp [hsw])
  have htstn : ∀ j, t.stn j = (y.modStn c.station (StationRec.checked (r.taken c))).stn j := fun j => by rw [ht]; rfl
  have htlink : ∀ j, t.link j = y.link j := fun j => by rw [ht]; rfl
  refine ⟨?_, fun j hj => ?_, ?_, ?_, ?_, ?_, ?_, ?_⟩
  · rw [ht, State.checked, haudit, htime, List.getElem?_modify_eq, he]
    rfl
  · rw [ht, State.checked, haudit]
    exact List.getElem?_modify_ne _ _ (Ne.symm hj)
  · rw [ht, State.checked, hsched, hsweeps]
  · rw [htstn, stn_modStn_self, hstn]
  · rw [htlink, hlink]
  · rw [htlink, hlink]
  · rw [ht, State.checked, haudit, htime, hevents, he]
    rfl
  · refine ⟨?_, fun j hj => ⟨?_, ?_⟩⟩
    · rw [ht]
      refine Eq.trans ?_ hsame.1
      rw [← haudit, ← hsched]
      rfl
    · exact (htstn j).trans ((stn_modStn_ne _ _ (Ne.symm hj)).trans (hsame.2 j hj).1)
    · exact (htlink j).trans (hsame.2 j hj).2

/-! ### What a check compares with -/

/-- The fingerprint a check compares with: its entry's, or that of the image it keeps (R119, R126). -/
theorem seenBy_expected {ims : List Image} (h : c.kept = none ∧ e.expected = some fp
    ∨ ∃ id, c.kept = some id ∧ imagePrint ims id = some fp) : (e.seenBy c ims).expected = some fp := by
  rcases h with ⟨hk, he⟩ | ⟨id, hk, hi⟩
  · rw [AuditEntry.seenBy, hk]
    exact he
  · rw [AuditEntry.seenBy, hk]
    exact hi

theorem seenBy_of_none {ims : List Image} (h : c.kept = none) : e.seenBy c ims = e := by rw [AuditEntry.seenBy, h]

/-- The reference words of a TUNABLE entry (R126). -/
theorem referenceWords_tunable {ps : List (Nat × Param)} {ims : List Image} {id : Nat} (hcls : e.cls = some .tunable)
    (hi : e.image = some id) (hlen : ref.length = (imageWords ims id).length)
    (hw : ∀ (j : Nat) (w : Word), (imageWords ims id)[j]? = some w → ref[j]? = some
      (match paramAt ps e.station e.block j with
       | some (_, p) => (p.encode p.current).getD (j - p.offset) w
       | none => w)) : referenceWords ps ims e = ref := by
  simp only [referenceWords, hcls, hi]
  refine List.ext_getElem? fun j => ?_
  cases h : (imageWords ims id)[j]? with
  | none =>
    have hle := List.getElem?_eq_none_iff.mp h
    rw [List.getElem?_eq_none (by rw [length_overlay]; exact hle), List.getElem?_eq_none (by rw [hlen]; exact hle)]
  | some w =>
    have ho := overlay_getElem? ps e.station e.block 0 h
    rw [Nat.zero_add] at ho
    rw [hw j w h]
    exact ho

/-- The words a READ check compares with, as the specification gives them for each class (R126, R119). -/
theorem referenceWords_seenBy (hlen : ref.length = e.length)
    (h : c.kept = none ∧ e.expected = some fp
          ∧ ((∃ id, (e.cls = some .fixed ∧ e.image = some id ∨ e.cls = some .format ∧ e.resolved = some id)
                ∧ ref = imageWords s.images id)
              ∨ (∃ id, e.cls = some .tunable ∧ e.image = some id ∧ (imageWords s.images id).length = e.length
                ∧ ∀ (j : Nat) (w : Word), (imageWords s.images id)[j]? = some w → ref[j]? = some
                  (match paramAt s.params e.station e.block j with
                   | some (_, p) => (p.encode p.current).getD (j - p.offset) w
                   | none => w)))
        ∨ ∃ id, c.kept = some id ∧ e.cls = some .format ∧ imagePrint s.images id = some fp
            ∧ ref = imageWords s.images id) :
    (e.seenBy c s.images).expected = some fp ∧ referenceWords s.params s.images (e.seenBy c s.images) = ref := by
  rcases h with ⟨hk, hexp, hcls⟩ | ⟨id, hk, hcls, hprint, rfl⟩
  · rw [seenBy_of_none hk]
    refine ⟨hexp, ?_⟩
    rcases hcls with ⟨id, ⟨hfix, him⟩ | ⟨hfor, hres⟩, rfl⟩ | ⟨id, htun, him, hl, hw⟩
    · simp only [referenceWords, hfix, him]
    · simp only [referenceWords, hfor, hres]
    · exact referenceWords_tunable htun him (hlen.trans hl.symm) hw
  · rw [AuditEntry.seenBy, hk]
    exact ⟨hprint, by simp only [referenceWords, hcls]⟩

/-! ### The results of a check's requests -/

theorem checkResult_sum {s1 s2 : Word} (hc : x.sched.check = some c) (he : x.audit[c.entry]? = some e)
    (hexp : (e.seenBy c x.images).expected = some fp) :
    checkResult i (.reply (.sumReply s1 s2)) x
      = if fp = (s1.toNat, s2.toNat) then endCheck .same x else sendCheckRead e c .confirming x := by
  simp only [checkResult, hc, he, hexp]

theorem checkResult_all (hc : x.sched.check = some c) (he : x.audit[c.entry]? = some e)
    (hall : c.got.length + ws.length = e.length) :
    checkResult i (.reply (.data ws)) x
      = endCheck (readResult x (e.seenBy c x.images) (decide (c.phase = .confirming)) (c.got ++ ws)) x := by
  simp only [checkResult, hc, he]
  exact if_neg (by simp [hall])

theorem checkResult_reject (why : RejectReason) (hc : x.sched.check = some c) (he : x.audit[c.entry]? = some e) :
    checkResult i (.reject why) x = endCheck .unreachable x := by
  simp only [checkResult, hc, he]

theorem checkResult_noReply (hc : x.sched.check = some c) (he : x.audit[c.entry]? = some e) :
    checkResult i .noReply x = endCheck .unreachable x := by
  simp only [checkResult, hc, he]

/-- A READ check whose fingerprint is the one expected (R126). -/
theorem readResult_same (he : e.expected = some fp) (h : fingerprint ws = fp) : readResult x e false ws = .same := by
  simp only [readResult, he]
  exact if_pos ⟨Bool.false_ne_true, h⟩

theorem readResult_compared {confirming : Bool} (he : e.expected = some fp)
    (h : confirming = true ∨ confirming = false ∧ fingerprint ws ≠ fp) :
    readResult x e confirming ws = match lowestDiff 0 (referenceWords x.params x.images e) ws with
      | some (o, ex, ac) => .different o ex ac (fingerprint ws)
      | none => if confirming then .sameUnreliable else .same := by
  simp only [readResult, he]
  refine if_neg ?_
  rintro ⟨hn, hf⟩
  rcases h with h | ⟨-, h⟩
  · exact hn h
  · exact h hf

/-! ### O47 -/

/-- The first part of O47: a SUM REPLY. -/
theorem sumReply_taken (i : Station) (k b n : Nat) (seq : Byte) (s1 s2 : Word) (e : AuditEntry) (c : Check)
    (f : Fingerprint) (s : State) (ha : Alone s i seq (.sum b n) .audit) (hon : (s.stn i).state = .online)
    (h1 : s1.toNat < 65521) (h2 : s2.toNat < 65521) (hc : s.sched.check = some c) (hk : c.entry = k) (hst : c.station = i)
    (hd : c.discard = false) (hgot : c.got = []) (hsw : c.bySweep = false) (he : s.audit[k]? = some e)
    (hexp : c.kept = none ∧ e.expected = some f ∨ ∃ id, c.kept = some id ∧ imagePrint s.images id = some f)
    (hp : s.sched.paceTimer ≠ none) :
    (f = (s1.toNat, s2.toNat) → ∃ t, exec (.sumReply i seq s1 s2) s = .next t
      ∧ t.audit[k]? = some { e with
          lastCheck := some s.guardTime
          lastOutcome := some .matched
          state := if e.state = .drift then .drift else .matched }
      ∧ (∀ j, j ≠ k → t.audit[j]? = s.audit[j]?) ∧ t.sched = { s.sched with check := none }
      ∧ (t.link i).holder = none ∧ (t.link i).inFlight = none
      ∧ SameBut i s { t with audit := s.audit, sched := s.sched } ∧ t.events = s.events)
    ∧ (f ≠ (s1.toNat, s2.toNat) → ∃ t, exec (.sumReply i seq s1 s2) s = .next t ∧ t.audit = s.audit
        ∧ t.sched.check = some { c with phase := .confirming }
        ∧ (t.link i).inFlight = some
          { seq := (s.stn i).nextSeq, request := .read e.block 0 (min (s.stn i).wordsPerFrame e.length),
            owner := some .audit, timeout := s.roster[i].replyTimeout }
        ∧ SameBut i s { t with sched := s.sched } ∧ t.events = s.events) := by
  subst hk hst
  have hex := exec_sumReply ha (up_of_online hon) h1 h2
  have hres := checkResult_sum (i := c.station) (x := s.ended c.station heardRec) (s1 := s1) (s2 := s2) hc he
    (seenBy_expected hexp)
  have htaken : CheckResult.taken c .same = .same := if_neg (by simp [hd])
  refine ⟨fun heq => ?_, fun hne => ?_⟩
  · rw [if_pos heq] at hres
    obtain ⟨g1, g2, g3, -, g5, g6, g7, g8⟩ := endCheck_spec (r := .same) (f := heardRec) hc rfl hsw he hp ha.holder ha.waiters
    rw [htaken] at g1 g7
    exact ⟨_, hex.trans (congrArg _ hres), g1, g2, g3, g5, g6, g8, g7⟩
  · rw [if_neg hne] at hres
    obtain ⟨y, hy⟩ : ∃ y, y = s.ended c.station heardRec := ⟨_, rfl⟩
    have hframe : (y.stn c.station).wordsPerFrame = (s.stn c.station).wordsPerFrame := by rw [hy]; simp [heardRec]
    obtain ⟨q, hq⟩ : ∃ q : StationRequest, q = .read e.block 0 (min (s.stn c.station).wordsPerFrame e.length) := ⟨_, rfl⟩
    have hsend : sendCheckRead e c .confirming y = modCheck (fun c => { c with phase := .confirming })
        (sendRequest c.station q .audit y) := by
      rw [hq, ← hframe]
      simp only [sendCheckRead, hgot, chunk, List.length_nil, Nat.sub_zero]
    obtain ⟨z, hz⟩ : ∃ z, z = sendRequest c.station q .audit y := ⟨_, rfl⟩
    rw [← hy, hsend, ← hz] at hres
    have hzs : z.sched = s.sched := by rw [hz, sendRequest_sched, hy, ended_sched]
    have hza : z.audit = s.audit := by rw [hz, sendRequest_audit, hy, ended_audit]
    have hze : z.events = s.events := by rw [hz, sendRequest_events, hy, ended_events]
    have hzl : (z.link c.station).inFlight = some (s.sending c.station q .audit) := by
      rw [hz, sendRequest_link_self, hy]
      simp [State.sending, heardRec]
    have hsame : SameBut c.station s z := by
      rw [hz, hy]
      exact (sameBut_ended c.station heardRec s).trans (sameBut_sendRequest _ _ _ _)
    rw [← hy] at hex
    refine ⟨_, hex.trans (congrArg _ hres), hza, ?_, ?_, ?_, hze⟩
    · simp only [modCheck, hzs, hc, Option.map_some]
    · rw [← hq]
      exact hzl
    · refine ⟨?_, hsame.2⟩
      refine Eq.trans ?_ hsame.1
      rw [← hzs]
      rfl

/-- Settles O47. -/
theorem sumReplyTaken : Obligations.SumReplyTaken := by
  refine ⟨?_, ?_, ?_⟩
  · intro i k b n seq s1 s2 e c f s ha hon h1 h2 hc hk hst hd hgot hsw he hexp hp
    exact sumReply_taken i k b n seq s1 s2 e c f s ha hon h1 h2 hc hk hst hd hgot hsw he hexp hp
  · intro i k b o n seq ws ref e c f s ha hon hlen hc hk hst hsw he hall hreflen hp hclass got ended matched
    subst hk
    obtain ⟨hexp, href⟩ := referenceWords_seenBy hreflen hclass
    have hex := (exec_dataReply ha (up_of_online hon) hlen).trans (congrArg _
      (checkResult_all (i := i) (x := s.ended i heardRec) (ws := ws) hc he (by rw [hlen]; exact hall)))
    obtain ⟨r, hr⟩ : ∃ r, r = readResult (s.ended i heardRec) (e.seenBy c s.images) (decide (c.phase = .confirming)) got :=
      ⟨_, rfl⟩
    have ends : ∀ (r' : CheckResult), r.taken c = r' →
        ended (e.after r' s.guardTime) ((s.stn i).sumUnreliable || decide (r' = .sameUnreliable))
          (if drifts e r' = true then postEvent s.guardTime (.station i) (.drift c.entry) s.events else s.events) := by
      rintro _ rfl
      obtain ⟨g1, g2, g3, g4, g5, g6, g7, g8⟩ := endCheck_spec (r := r) (f := heardRec) hc hst hsw he hp ha.holder ha.waiters
      rw [hr] at g1 g2 g3 g4 g5 g6 g7 g8
      rw [hr]
      exact ⟨_, hex, g1, g2, g3, g4, g5, g6, g7, g8⟩
    have hkept : c.discard = false → r.taken c = r := fun hd => if_neg (by simp [hd])
    refine ⟨fun hd => ?_, fun hd hph hf => ?_, fun hd hph hg => ?_, fun d x y hd hph htake hx hy hxy => ?_⟩
    · have h := ends .nothing (if_pos (by simp [hd]))
      simpa [drifts, AuditEntry.after] using h
    · have hsame : r = .same := by
        have hdec : decide (c.phase = .confirming) = false := by rw [hph]; rfl
        rw [hr, hdec]
        exact readResult_same hexp hf
      have h := ends .same ((hkept hd).trans hsame)
      simpa [drifts, AuditEntry.after, matched] using h
    · have hsame : r = .sameUnreliable := by
        have hdec : decide (c.phase = .confirming) = true := by rw [hph]; rfl
        rw [hr, hdec, readResult_compared hexp (.inl rfl), ended_params, ended_images, href, hg, lowestDiff_self]
        rfl
      have h := ends .sameUnreliable ((hkept hd).trans hsame)
      simpa [drifts, AuditEntry.after, matched] using h
    · have hdiff : r = .different d x y (fingerprint got) := by
        have hcomp : decide (c.phase = .confirming) = true ∨ decide (c.phase = .confirming) = false ∧ fingerprint got ≠ f :=
          hph.imp decide_eq_true (fun h => ⟨by rw [h.1]; rfl, h.2⟩)
        have hlow := lowestDiff_eq_some (k := 0) htake hx hy hxy
        rw [Nat.zero_add] at hlow
        rw [hr, readResult_compared hexp hcomp, ended_params, ended_images, href, hlow]
      have h := ends _ ((hkept hd).trans hdiff)
      refine ⟨fun hdr => ?_, fun hdr => ?_⟩
      · simpa [drifts, AuditEntry.after, hdr] using h
      · simpa [drifts, AuditEntry.after, hdr] using h
  · intro i k seq reason q why e c s ha hon hwhy hq hc hk hst hd hsw he hp ended
    subst hk
    have htaken : CheckResult.taken c .unreachable = .unreachable := if_neg (by simp [hd])
    have ends : ∀ (command : Instr) (f : StationRec → StationRec) (missed : Nat),
        f (s.stn i) = { s.stn i with missed := missed } →
        exec command s = .next (endCheck .unreachable (s.ended i f)) → ended command missed := by
      intro command f missed hf hex
      obtain ⟨g1, g2, g3, g4, g5, g6, g7, g8⟩ := endCheck_spec (r := .unreachable) (f := f) hc hst hsw he hp ha.holder ha.waiters
      rw [htaken] at g1 g4 g7
      refine ⟨_, hex, g1, g2, g3, g4.trans ?_, g5, g6, g7, g8⟩
      rw [hf]
      simp [StationRec.checked]
    refine ⟨ends _ heardRec 0 rfl ((exec_rejectReply ha (up_of_online hon) hwhy).trans (congrArg _
      (checkResult_reject why hc he))), fun hm => ends _ (unheardRec q) _ ?_
      ((exec_replyTimeout ha (up_of_online hon) hm).trans (congrArg _ (checkResult_noReply hc he)))⟩
    rcases hq with ⟨b, n, rfl⟩ | ⟨b, o, n, rfl⟩ <;> simp [unheardRec, StationRequest.isWrite]

end Sys2Proof.Machine
end

section
/-! SUPPORT. The choice of the next entry to check, and the beginning of its check. -/

namespace Sys2Proof.Machine

open Sys2Proof

variable {s t x y : State} {i j : Station} {c : Check} {e : AuditEntry} {k : Nat} {es : List AuditEntry}
  {test : AuditEntry → Bool} {p : Nat → Bool} {queue : List Sweep}

/-! ### Entries by index -/

theorem find?_indicesOf_some (he : es[k]? = some e) (ht : test e = true) (hp : p k = true)
    (hmin : ∀ j, j < k → ∀ x, es[j]? = some x → test x = true → p j = false) : (indicesOf test es).find? p = some k := by
  rw [indicesOf, List.find?_filter, List.find?_range_eq_some]
  refine ⟨by simp [he, ht, hp], List.mem_range.mpr (List.getElem?_eq_some_iff.mp he).1, fun j hj => ?_⟩
  cases hx : es[j]? with
  | none => simp
  | some x =>
    cases htx : test x with
    | false => simp [htx]
    | true => simp [htx, hmin j hj x hx htx]

theorem find?_indicesOf_none (h : ∀ j x, es[j]? = some x → test x = true → p j = false) :
    (indicesOf test es).find? p = none := by
  rw [indicesOf, List.find?_filter, List.find?_range_eq_none]
  intro j _
  cases hx : es[j]? with
  | none => simp
  | some x =>
    cases htx : test x with
    | false => simp [htx]
    | true => simp [htx, h j x hx htx]

theorem head?_eq_find? {α : Type} (l : List α) : l.head? = l.find? (fun _ => true) := by
  cases l <;> rfl

/-- Which entries the scheduler may choose (R124). -/
theorem choosable_iff : e.choosable = true ↔ e.state ≠ .suspended ∧ e.state ≠ .notApplicable
    ∧ ¬ (e.cls = some .format ∧ e.state = .drift ∧ e.resolved = none) := by
  simp only [AuditEntry.choosable, Bool.not_eq_true', Bool.or_eq_false_iff, Bool.and_eq_false_iff, decide_eq_false_iff_not]
  tauto

/-! ### The choice -/

/-- Nothing is left of the head's sweep, or nothing at all waits (R124). -/
theorem choose_sweep (h : chooseSweep s.audit s.sched.sweeps = (queue, some k)) :
    choose s = beginCheck k true (s.setSched { s.sched with sweeps := queue }) := by
  simp only [choose, h]
  rfl

theorem choose_round (h : chooseSweep s.audit s.sched.sweeps = (queue, none)) (hr : chooseRound s = some k) :
    choose s = beginCheck k false (s.setSched { s.sched with sweeps := queue, cursor := some k }) := by
  have hr' : chooseRound (s.setSched { s.sched with sweeps := queue }) = some k := hr
  have hs : ({ s with sched := { s.sched with sweeps := queue } } : State) = s.setSched { s.sched with sweeps := queue } := rfl
  simp only [choose, h, hs, hr']
  rfl

theorem choose_nothing (h : chooseSweep s.audit s.sched.sweeps = (queue, none)) (hr : chooseRound s = none) :
    choose s = startPace (s.setSched { s.sched with sweeps := queue }) := by
  have hr' : chooseRound (s.setSched { s.sched with sweeps := queue }) = none := hr
  have hs : ({ s with sched := { s.sched with sweeps := queue } } : State) = s.setSched { s.sched with sweeps := queue } := rfl
  simp only [choose, h, hs, hr']

/-- The choice from one queue or from another with the same outcome. -/
theorem choose_congr {ss : List Sweep} (h : chooseSweep s.audit ss = chooseSweep s.audit s.sched.sweeps) :
    choose (s.setSched { s.sched with sweeps := ss }) = choose s := by
  have h' : chooseSweep (s.setSched { s.sched with sweeps := ss }).audit (s.setSched { s.sched with sweeps := ss }).sched.sweeps
      = chooseSweep s.audit s.sched.sweeps := h
  unfold choose
  rw [h']
  rfl

/-- The first entry after the cursor that may be checked, or the first of all (R124). -/
theorem chooseRound_some (he : s.audit[k]? = some e) (hch : e.choosable = true) (hon : (s.stn e.station).state = .online)
    (h : ((∀ c, s.sched.cursor = some c → c < k) ∧ ∀ j, (∀ c, s.sched.cursor = some c → c < j) → j < k →
          ¬ ∃ e : AuditEntry, s.audit[j]? = some e ∧ e.choosable = true ∧ (s.stn e.station).state = .online)
      ∨ (∀ j, (∀ c, s.sched.cursor = some c → c < j) →
          ¬ ∃ e : AuditEntry, s.audit[j]? = some e ∧ e.choosable = true ∧ (s.stn e.station).state = .online)
        ∧ ∀ j, j < k → ¬ ∃ e : AuditEntry, s.audit[j]? = some e ∧ e.choosable = true ∧ (s.stn e.station).state = .online) :
    chooseRound s = some k := by
  have htest : ∀ x : AuditEntry, (s.online x.station && x.choosable) = true ↔
      x.choosable = true ∧ (s.stn x.station).state = .online := by
    intro x
    simp [State.online, and_comm]
  have hfirst : (∀ j, j < k → ¬ ∃ e : AuditEntry, s.audit[j]? = some e ∧ e.choosable = true
      ∧ (s.stn e.station).state = .online) →
      (indicesOf (fun e => s.online e.station && e.choosable) s.audit).head? = some k := by
    intro hnone
    rw [head?_eq_find?]
    exact find?_indicesOf_some he ((htest e).mpr ⟨hch, hon⟩) rfl
      fun j hj x hx ht => absurd ⟨x, hx, (htest x).mp ht⟩ (hnone j hj)
  unfold chooseRound
  cases hcur : s.sched.cursor with
  | none =>
    refine hfirst fun j hj => ?_
    rcases h with ⟨-, h⟩ | ⟨h, -⟩
    · exact h j (by rw [hcur]; exact nofun) hj
    · exact h j (by rw [hcur]; exact nofun)
  | some c =>
    have hafter : ∀ j, c < j → ∀ c', s.sched.cursor = some c' → c' < j := by
      rintro j hj c' hc'
      cases hcur.symm.trans hc'
      exact hj
    simp only
    rcases h with ⟨hk, hnone⟩ | ⟨hnone, hbefore⟩
    · have hfind := find?_indicesOf_some (p := fun j => decide (c < j)) (test := fun e => s.online e.station && e.choosable)
        he ((htest e).mpr ⟨hch, hon⟩) (decide_eq_true (hk c hcur)) fun j hj x hx ht =>
          decide_eq_false fun hcj => hnone j (hafter j hcj) hj ⟨x, hx, (htest x).mp ht⟩
      rw [hfind]
    · have hfind := find?_indicesOf_none (p := fun j => decide (c < j)) (test := fun e => s.online e.station && e.choosable)
        (es := s.audit) fun j x hx ht => decide_eq_false fun hcj => hnone j (hafter j hcj) ⟨x, hx, (htest x).mp ht⟩
      rw [hfind]
      exact hfirst hbefore

theorem chooseRound_none (h : ∀ j : Nat, ¬ ∃ e : AuditEntry, s.audit[j]? = some e ∧ e.choosable = true
    ∧ (s.stn e.station).state = .online) : chooseRound s = none := by
  have hall : ∀ p, (indicesOf (fun e => s.online e.station && e.choosable) s.audit).find? p = none := by
    intro p
    refine find?_indicesOf_none fun j x hx ht => absurd ⟨x, hx, ?_⟩ (h j)
    simpa [State.online, and_comm] using ht
  unfold chooseRound
  simp only [head?_eq_find?, hall]
  split <;> rfl

/-- An entry that comes next in a sweep (R124). -/
def NextInSweep (es : List AuditEntry) (i : Station) (taken : Option Nat) (j : Nat) : Prop :=
  ∃ e : AuditEntry, es[j]? = some e ∧ e.station = i ∧ e.choosable = true ∧ ∀ x, taken = some x → x < j

theorem nextOfSweep_some {taken : Option Nat} (h : NextInSweep es i taken k) (hmin : ∀ j, j < k → ¬ NextInSweep es i taken j) :
    nextOfSweep es i taken = some k := by
  obtain ⟨e, he, hst, hch, htaken⟩ := h
  refine find?_indicesOf_some he (by simp [hst, hch]) ?_ fun j hj x hx ht => ?_
  · cases taken with
    | none => rfl
    | some a => exact decide_eq_true (htaken a rfl)
  · have hx' : x.station = i ∧ x.choosable = true := by simpa using ht
    cases taken with
    | none => exact absurd ⟨x, hx, hx'.1, hx'.2, nofun⟩ (hmin j hj)
    | some a =>
      refine decide_eq_false fun ha => hmin j hj ⟨x, hx, hx'.1, hx'.2, fun b hb => ?_⟩
      cases hb
      exact ha

theorem nextOfSweep_none {taken : Option Nat} (h : ∀ j, ¬ NextInSweep es i taken j) : nextOfSweep es i taken = none := by
  refine find?_indicesOf_none fun j x hx ht => ?_
  have hx' : x.station = i ∧ x.choosable = true := by simpa using ht
  cases taken with
  | none => exact absurd ⟨x, hx, hx'.1, hx'.2, nofun⟩ (h j)
  | some a =>
    refine decide_eq_false fun ha => h j ⟨x, hx, hx'.1, hx'.2, fun b hb => ?_⟩
    cases hb
    exact ha

/-- A sweep that is done leaves the queue, or begins again (R124). -/
theorem chooseSweep_done {q : Sweep} {qs : List Sweep} (h : nextOfSweep es q.station q.taken = none) :
    chooseSweep es (if q.again = true then { q with started := true, again := false, taken := none } :: qs else qs)
      = chooseSweep es (q :: qs) := by
  cases ha : q.again with
  | false => simp [chooseSweep, h, ha]
  | true =>
    rw [if_pos rfl]
    simp only [chooseSweep, h, ha, if_true, Bool.false_eq_true, if_false]

/-! ### The check that begins -/

/-- The check of an entry that has been chosen (R125). -/
def AuditEntry.chosen (e : AuditEntry) (k : Nat) (bySweep : Bool) : Check :=
  { entry := k, station := e.station, phase := .waiting, got := [], bySweep := bySweep, discard := false }

/-- The state of a chosen entry whose check is placed. -/
def State.choosing (s : State) (v : Scheduler) (c : Check) : State :=
  s.setSched { v with check := some c, paceTimer := some s.timing.auditPace }

theorem beginCheck_eq {bySweep : Bool} {v : Scheduler} (he : s.audit[k]? = some e) (hon : (s.stn e.station).state = .online) :
    beginCheck k bySweep (s.setSched v) = place e.station .audit (s.choosing v (e.chosen k bySweep)) := by
  have hmay : mayPlace ((s.setSched v).stn e.station).state .audit = true := by
    rw [State.setSched_stn, hon]
    rfl
  have he' : (s.setSched v).audit[k]? = some e := he
  simp only [beginCheck, he', hmay]
  rfl

/-- The first request of a check: READ for an entry of READ mode or with unreliable sums, else SUM (R126, R127). -/
def firstCheckRequest (s : State) (i : Station) (e : AuditEntry) : StationRequest :=
  if e.readMode = true ∨ (s.stn i).sumUnreliable = true
    then .read e.block 0 (min (s.stn i).wordsPerFrame e.length) else .sum e.block e.length

/-- The phase that request is of. -/
def firstCheckPhase (s : State) (i : Station) (e : AuditEntry) : CheckPhase :=
  if e.readMode = true ∨ (s.stn i).sumUnreliable = true then .reading else .summing

/-- A check on an idle link sends its first request. -/
theorem startAudit_eq (hc : x.sched.check = some c) (he : x.audit[c.entry]? = some e) (hst : c.station = i)
    (hg : c.got = []) : startAudit i x
      = modCheck (fun c => { c with phase := firstCheckPhase x i e }) (sendRequest i (firstCheckRequest x i e) .audit x) := by
  simp only [startAudit, hc, he, hst, firstCheckRequest, firstCheckPhase]
  by_cases hr : e.readMode = true ∨ (x.stn i).sumUnreliable = true
  · simp only [if_pos hr, sendCheckRead, hst, hg, List.length_nil, Nat.sub_zero, chunk]
  · simp only [if_neg hr]

/-- A check that begins on an idle link (R125 to R127). -/
theorem choosing_idle {v : Scheduler} (hc : c.entry = k) (hst : c.station = e.station) (hg : c.got = [])
    (he : s.audit[k]? = some e) (hi : s.idleLink e.station) :
    let t := place e.station .audit (s.choosing v c)
    t.sched = { v with check := some { c with phase := firstCheckPhase s e.station e }, paceTimer := some s.timing.auditPace }
      ∧ SameBut e.station s { t with sched := s.sched } ∧ t.events = s.events
      ∧ (t.link e.station).holder = some .audit
      ∧ (t.link e.station).inFlight = some (s.sending e.station (firstCheckRequest s e.station e) .audit) := by
  subst hc
  intro t
  obtain ⟨y, hy⟩ : ∃ y, y = (s.choosing v c).heldBy e.station .audit := ⟨_, rfl⟩
  have hstart : startUser e.station .audit y
      = modCheck (fun c => { c with phase := firstCheckPhase s e.station e }) (sendRequest e.station (firstCheckRequest s e.station e) .audit y) := by
    rw [hy]
    exact startAudit_eq (x := (s.choosing v c).heldBy e.station .audit) rfl he hst hg
  obtain ⟨z, hz⟩ : ∃ z, z = sendRequest e.station (firstCheckRequest s e.station e) .audit y := ⟨_, rfl⟩
  rw [← hz] at hstart
  have hocc : (startUser e.station .audit y).occupied e.station := by
    rw [hstart, hz]
    exact sendRequest_occupied y e.station _ _
  have ht : t = modCheck (fun c => { c with phase := firstCheckPhase s e.station e }) z := by
    rw [← hstart, hy]
    refine place_idle (s := s.choosing v c) hi ?_
    rw [← hy]
    exact hocc
  have hsched : z.sched = { v with check := some c, paceTimer := some s.timing.auditPace } := by
    rw [hz, sendRequest_sched, hy]
    rfl
  have hsame : SameBut e.station s { z with sched := s.sched } := by
    rw [hz, hy]
    exact SameBut.ofSetSched (sameBut_asks e.station _ .audit (s.choosing v c))
  have hlink : z.link e.station = { s.link e.station with holder := some .audit, inFlight := some (s.sending e.station (firstCheckRequest s e.station e) .audit) } := by
    rw [hz, hy]
    exact asks_link_self (s := s.choosing v c)
  have hevents : z.events = s.events := by
    rw [hz, hy]
    rfl
  rw [ht]
  refine ⟨?_, hsame, hevents, congrArg LinkRec.holder hlink, congrArg LinkRec.inFlight hlink⟩
  simp only [modCheck, hsched, Option.map_some]

/-- A check on an occupied link waits for it (R19). -/
theorem choosing_occupied {v : Scheduler} (ho : s.occupied e.station) :
    let t := place e.station .audit (s.choosing v c)
    t.sched = { v with check := some c, paceTimer := some s.timing.auditPace }
      ∧ SameBut e.station s { t with sched := s.sched } ∧ t.events = s.events ∧ t.stn e.station = s.stn e.station
      ∧ t.link e.station = { s.link e.station with waiters := (s.link e.station).waiters ++ [.audit] } := by
  intro t
  have ht : t = addWaiter e.station .audit (s.choosing v c) := place_occupied (s := s.choosing v c) ho
  rw [ht]
  refine ⟨rfl, ⟨rfl, fun j hj => ⟨rfl, ?_⟩⟩, rfl, rfl, ?_⟩
  · exact link_modLink_ne (s.choosing v c) (fun l => { l with waiters := l.waiters ++ [.audit] }) (Ne.symm hj)
  · exact link_modLink_self (s.choosing v c) _ _

/-- The pace timer expires with no check in progress (R122). -/
theorem exec_auditPaceExpiry (hp : s.power = .running) (hg : s.stage = .guarding) (hc : s.sched.check = none)
    (ht : s.sched.paceTimer ≠ none) :
    exec .auditPaceExpiry s = .next (choose (s.setSched { s.sched with paceTimer := none })) := by
  have hrun : exec .auditPaceExpiry s = .next (whenRunning auditPaceExpiry s) := rfl
  have hsome : s.sched.paceTimer.isSome = true := Option.isSome_iff_ne_none.mpr ht
  rw [hrun, whenRunning_running _ s hp, auditPaceExpiry, if_pos hsome]
  exact congrArg _ (if_pos ⟨hg, hc, rfl⟩)

/-- Settles O51. -/
theorem auditPaces : Obligations.AuditPaces := by
  intro s hp hg hc ht eligible may after checking
  have hex := exec_auditPaceExpiry hp hg hc ht
  obtain ⟨y, hy⟩ : ∃ y, y = s.setSched { s.sched with paceTimer := none } := ⟨_, rfl⟩
  rw [← hy] at hex
  have hmay : ∀ j, may j ↔ ∃ e : AuditEntry, s.audit[j]? = some e ∧ e.choosable = true ∧ (s.stn e.station).state = .online :=
    fun j => exists_congr fun e => and_congr_right fun _ => and_congr_left fun _ => choosable_iff.symm
  have begins : ∀ (k : Nat) (e : AuditEntry) (bySweep : Bool) (cursor : Option Nat) (queue : List Sweep),
      s.audit[k]? = some e → (s.stn e.station).state = .online →
      choose y = beginCheck k bySweep (y.setSched { y.sched with sweeps := queue, cursor := cursor }) →
      checking k e bySweep cursor queue := by
    intro k e bySweep cursor queue he hon hch
    have hbegin : choose y = place e.station .audit
        (s.choosing { check := none, paceTimer := none, sweeps := queue, cursor := cursor } (e.chosen k bySweep)) := by
      rw [hch, hy]
      exact beginCheck_eq (s := s) (v := { check := s.sched.check, paceTimer := none, sweeps := queue, cursor := cursor }) he hon
    rw [hbegin] at hex
    refine ⟨fun hh hw hf => ?_, fun ho => ?_⟩
    · obtain ⟨g1, g2, g3, g4, g5⟩ := choosing_idle (c := e.chosen k bySweep)
        (v := { check := none, paceTimer := none, sweeps := queue, cursor := cursor }) rfl rfl rfl he ⟨hh, hw, hf⟩
      exact ⟨_, ⟨hex, g1, g2, g3⟩, g4, g5⟩
    · obtain ⟨g1, g2, g3, g4, g5⟩ := choosing_occupied (c := e.chosen k bySweep)
        (v := { check := none, paceTimer := none, sweeps := queue, cursor := cursor }) ho
      exact ⟨_, ⟨hex, g1, g2, g3⟩, g4, g5⟩
  have hround : s.sched.sweeps = [] → chooseSweep y.audit y.sched.sweeps = ([], none) := by
    intro h
    have hys : y.sched.sweeps = [] := by rw [hy]; exact h
    rw [hys]
    rfl
  refine ⟨fun hempty hnone => ?_, fun k e hempty he hmk hfirst => ?_, fun q qs hqueue => ?_⟩
  · have hno : chooseRound y = none := by
      rw [hy]
      exact chooseRound_none (s := s.setSched _) fun j hj => hnone j ((hmay j).mpr hj)
    rw [hex, choose_nothing (hround hempty) hno, hy, ← hempty]
    rfl
  · obtain ⟨e', he', helig, hon⟩ := hmk
    cases he.symm.trans he'
    have hsome : chooseRound y = some k := by
      rw [hy]
      refine chooseRound_some (s := s.setSched _) he (choosable_iff.mpr helig) hon ?_
      simp only [hmay] at hfirst
      exact hfirst
    exact begins k e false (some k) [] he hon (choose_round (hround hempty) hsome)
  · intro next
    have hnext : ∀ j, next j ↔ NextInSweep s.audit q.station q.taken j := fun j =>
      exists_congr fun e => and_congr_right fun _ => and_congr_right fun _ => and_congr_left fun _ => choosable_iff.symm
    refine ⟨fun k e he hk hmin hon => ?_, fun hnone => ?_⟩
    · have hsome := nextOfSweep_some ((hnext k).mp hk) fun j hj h => hmin j hj ((hnext j).mpr h)
      have hch : chooseSweep y.audit y.sched.sweeps = ({ q with started := true } :: qs, some k) := by
        have hys : y.sched.sweeps = q :: qs := by rw [hy]; exact hqueue
        have hya : y.audit = s.audit := by rw [hy]; rfl
        rw [hys, hya]
        simp only [chooseSweep, hsome]
      refine begins k e true s.sched.cursor _ he hon ((choose_sweep hch).trans ?_)
      rw [hy]
      rfl
    · have hdone := chooseSweep_done (qs := qs) (nextOfSweep_none fun j h => hnone j ((hnext j).mpr h))
      obtain ⟨ss, hss⟩ : ∃ ss, ss = if q.again = true then { q with started := true, again := false, taken := none } :: qs
          else qs := ⟨_, rfl⟩
      rw [← hss] at hdone ⊢
      have hex' := exec_auditPaceExpiry (s := s.setSched { s.sched with sweeps := ss }) hp hg hc ht
      refine hex.trans (Eq.trans ?_ hex'.symm)
      refine congrArg _ (Eq.symm ?_)
      rw [hy]
      exact choose_congr (s := s.setSched { s.sched with paceTimer := none }) (ss := ss)
        (hdone.trans (congrArg (chooseSweep s.audit) hqueue.symm))

end Sys2Proof.Machine
end

section
/-! SUPPORT. REJECTs, timeouts, and the passing of the link to the operation that waits first. -/

namespace Sys2Proof.Machine

open Sys2Proof

variable {s t x y : State} {i j : Station} {u : LinkUser} {seq : Byte} {q : StationRequest} {op : ToolOp} {p : Port}
  {f : StationRec → StationRec} {g : LinkRec → LinkRec} {tr : Transaction}

/-! ### The first request of an operation that has been granted its link -/

/-- What the first request of an operation leaves of the links, the records of the other stations and the events. -/
def FirstSent (x : State) (i : Station) (u : LinkUser) (q : StationRequest) (t : State) : Prop :=
  t.link i = { x.link i with inFlight := some (x.sending i q u) } ∧ t.events = x.events
    ∧ ∀ j : Station, j ≠ i → t.stn j = x.stn j ∧ t.link j = x.link j

theorem firstSent_sendRequest (x : State) (i : Station) (u : LinkUser) (q : StationRequest) :
    FirstSent x i u q (sendRequest i q u x) :=
  ⟨sendRequest_link_self, rfl, fun _ hj => ⟨sendRequest_stn_ne hj, sendRequest_link_ne hj⟩⟩

theorem FirstSent.modSlot (h : FirstSent x i u q t) (f : ToolOp → ToolOp) : FirstSent x i u q (modSlot i f t) :=
  ⟨h.1, h.2.1, fun j hj => ⟨(stn_modStn_ne t _ (Ne.symm hj)).trans (h.2.2 j hj).1, (h.2.2 j hj).2⟩⟩

theorem FirstSent.modCheck (h : FirstSent x i u q t) (f : Check → Check) : FirstSent x i u q (modCheck f t) := h
theorem FirstSent.modCh (h : FirstSent x i u q t) (f : Changeover → Changeover) : FirstSent x i u q (modCh f t) := h

/-- The work of an operation that has just been granted the link begins with its first request (R15, R79, R94, R126,
R127, R145, R148, R163). -/
theorem startUser_first (h : FirstRequest x i u q) : FirstSent x i u q (startUser i u x) := by
  cases u with
  | bringUp => exact h.elim
  | presence =>
    obtain rfl : q = .state := h
    exact firstSent_sendRequest x i .presence .state
  | access c =>
    obtain ⟨w, hw, rfl, hg, rfl⟩ := h
    have hstart : startUser w.station (.access c) x = sendRequest w.station
        (.read w.block w.offset (min (x.stn w.station).wordsPerFrame w.count)) (.access c)
        (x.setChan c { state := .running, work := some w }) := by
      simp only [startUser, startAccess, hw, sendAccessRead, hg, List.length_nil, Nat.add_zero, Nat.sub_zero, chunk,
        State.setChan_stn]
    rw [hstart]
    exact firstSent_sendRequest (x.setChan c _) w.station (.access c) _
  | audit =>
    obtain ⟨c, e, hc, hst, hg, he, rfl⟩ := h
    have hstart : startUser i .audit x = modCheck (fun c => { c with phase := firstCheckPhase x i e })
        (sendRequest i (firstCheckRequest x i e) .audit x) := startAudit_eq hc he hst hg
    rw [hstart]
    exact (firstSent_sendRequest x i .audit _).modCheck _
  | tool =>
    obtain ⟨op, hs, ⟨hw, hg, rfl⟩ | ⟨hw, ha, ⟨p, hp, hj⟩, rfl⟩⟩ := h
    · have hstart : startUser i .tool x = _ := startTool_read hs hw hg
      rw [hstart]
      exact (firstSent_sendRequest x i .tool _).modSlot _
    · have hstart : startUser i .tool x = sendToolWrite i op x := by
        show startTool i x = _
        rw [startTool_write hs hw, releaseAnswer_notNeeded hp hj]
      rw [hstart, sendToolWrite_first ha]
      exact (firstSent_sendRequest x i .tool _).modSlot _
  | changeover =>
    obtain ⟨st, hst, rfl, ⟨happ, rfl⟩ | ⟨hver, block, offset, ws, hn, rfl⟩⟩ := h
    · have hstart : startUser st.station .changeover x
          = modCh (fun c => { c with phase := .checking }) (sendRequest st.station .state .changeover x) := by
        simp only [startUser, startStep, happ, hst]
      rw [hstart]
      exact (firstSent_sendRequest x st.station .changeover _).modCh _
    · have hread : stepRead x st x.changeover.done = some (block, offset, ws.length) := stepRead_of_nextWrite hn rfl rfl rfl
      have hstart : startUser st.station .changeover x = modCh (fun c => { c with phase := .reading })
          (sendRequest st.station (.read block offset ws.length) .changeover x) := by
        simp only [startUser, startStep, hver, hst, hread]
      rw [hstart]
      exact (firstSent_sendRequest x st.station .changeover _).modCh _

/-- The first request does not depend on a station's counters nor on its link. -/
theorem FirstRequest.moved (h : FirstRequest s i u q) (hf : CountsOnly f) :
    FirstRequest ((s.modStn i f).modLink i g) i u q := by
  have hstn : ((s.modStn i f).modLink i g).stn i = f (s.stn i) := stn_modStn_self s i f
  cases u with
  | bringUp => exact h
  | presence => exact h
  | access c =>
    obtain ⟨w, hw, hst, hg, hq⟩ := h
    refine ⟨w, hw, hst, hg, ?_⟩
    rw [hstn, hf.wordsPerFrame]
    exact hq
  | audit =>
    obtain ⟨c, e, hc, hst, hg, he, hq⟩ := h
    refine ⟨c, e, hc, hst, hg, he, ?_⟩
    rw [hstn, hf.wordsPerFrame, hf.sumUnreliable]
    exact hq
  | tool =>
    obtain ⟨op, hs, hor⟩ := h
    refine ⟨op, by rw [hstn, hf.slot]; exact hs, hor.imp (fun ⟨hw, hg, hq⟩ => ⟨hw, hg, ?_⟩)
      fun ⟨hw, ha, hp, hq⟩ => ⟨hw, ha, hp, ?_⟩⟩
    · rw [hstn, hf.wordsPerFrame]
      exact hq
    · rw [hstn, hf.wordsPerFrame]
      exact hq
  | changeover =>
    obtain ⟨st, hst, rfl, hor⟩ := h
    refine ⟨st, hst, rfl, hor.imp id fun ⟨hver, block, offset, ws, hn, hq⟩ => ⟨hver, block, offset, ws, ?_, hq⟩⟩
    refine hn.congr rfl rfl ?_
    rw [hstn, hf.wordsPerFrame]

/-! ### The passing of the link -/

theorem FirstSent.occupied (h : FirstSent x i u q t) : t.occupied i := .inr (by rw [h.1]; exact nofun)

/-- An idle link passes to the waiter of highest priority, among equals the one placed first, and its first request goes
out (R19, R20). -/
theorem grant_first {before after : List LinkUser} (hf : CountsOnly f)
    (hh : (g (s.link i)).holder = none) (hn : (g (s.link i)).inFlight = none)
    (hw : (g (s.link i)).waiters = before ++ u :: after) (hb : ∀ v ∈ before, u.rank < v.rank)
    (ha : ∀ v ∈ after, u.rank ≤ v.rank) (h : FirstRequest s i u q) :
    let t := grant i ((s.modStn i f).modLink i g)
    (t.link i).holder = some u ∧ (t.link i).waiters = before ++ after
      ∧ (t.link i).inFlight = some (s.sending i q u) ∧ t.events = s.events
      ∧ ∀ j : Station, j ≠ i → t.stn j = s.stn j ∧ t.link j = s.link j := by
  intro t
  obtain ⟨y, hy⟩ : ∃ y, y = (s.modStn i f).modLink i g := ⟨_, rfl⟩
  have hylink : y.link i = g (s.link i) := by rw [hy, link_modLink_self, State.modStn_link]
  have herase : (before ++ u :: after).erase u = before ++ after := by
    have hnot : u ∉ before := fun hm => Nat.lt_irrefl _ (hb u hm)
    rw [List.erase_append_right _ hnot, List.erase_cons_head]
  obtain ⟨z, hz⟩ : ∃ z, z = takeWaiter i u y := ⟨_, rfl⟩
  have hz' : z = (s.modStn i f).modLink i (fun l => { g l with holder := some u, waiters := (g l).waiters.erase u }) := by
    rw [hz, hy, takeWaiter, modLink_modLink]
  have hzlink : z.link i = { g (s.link i) with holder := some u, waiters := before ++ after } := by
    rw [hz, takeWaiter, link_modLink_self, hylink, hw, herase]
  have hzstn : z.stn i = f (s.stn i) := by rw [hz']; exact stn_modStn_self s i f
  have hsend : z.sending i q u = s.sending i q u := by
    have hros : z.roster = s.roster := by rw [hz']; rfl
    rw [State.sending, hzstn, hf.nextSeq, hros]
    rfl
  have hfirst : FirstSent z i u q (startUser i u z) := by
    refine startUser_first ?_
    rw [hz']
    exact h.moved hf
  have hpick : pickWaiter (y.link i).waiters = some u := by
    rw [hylink, hw]
    exact pickWaiter_split hb ha
  have ht : t = startUser i u z := by
    have hgrant := grant_pick (s := y) (by rw [hylink]; exact hh) (by rw [hylink]; exact hn) hpick
      (by rw [← hz]; exact hfirst.occupied)
    rw [← hz] at hgrant
    rw [← hgrant, hy]
  obtain ⟨h1, h2, h3⟩ := hfirst
  rw [ht]
  refine ⟨?_, ?_, ?_, ?_, fun j hj => ⟨(h3 j hj).1.trans ?_, (h3 j hj).2.trans ?_⟩⟩
  · rw [h1, hzlink]
  · rw [h1, hzlink]
  · rw [h1, hsend]
  · rw [h2, hz']
    rfl
  · rw [hz']
    exact stn_modStn_ne s f (Ne.symm hj)
  · rw [hz']
    exact link_modLink_ne (s.modStn i f) _ (Ne.symm hj)

/-! ### The ends of any transaction -/

/-- A transaction that ends REJECT. -/
theorem exec_rejectReply_any {reason : Byte} {why : RejectReason} (hp : s.power = .running)
    (hon : (s.stn i).state = .online) (hfl : (s.link i).inFlight = some tr) (hseq : tr.seq = seq)
    (hwhy : rejectOf reason = some why) :
    exec (.rejectReply i seq reason) s = .next (match tr.owner with
      | some u => ownerResult i u tr.request (.reject why) (s.ended i heardRec)
      | none => grant i (s.ended i heardRec)) := by
  have hup := up_of_online hon
  have hne : TxResult.reject why ≠ .noReply := nofun
  have hres : replyResult (.reject reason) = .reject why := by simp [replyResult, hwhy]
  have htaken := stationReply_taken (r := .reject reason) hp hfl hseq (answers_reject _ _) (wellFormedReply_reject _ hwhy)
  rw [hres] at htaken
  refine congrArg Host.Outcome.next (htaken.trans ?_)
  cases ho : tr.owner with
  | none => rw [endTransaction_answered_orphan hne hup ho, linkEffects_reject]; rfl
  | some u => rw [endTransaction_answered hne hup ho, linkEffects_reject]; rfl

/-- A transaction that times out without losing the link. -/
theorem exec_replyTimeout_any (hp : s.power = .running) (hon : (s.stn i).state = .online)
    (hfl : (s.link i).inFlight = some tr) (hm : (s.stn i).missed < 2) :
    exec (.replyTimeout i) s = .next (match tr.owner with
      | some u => ownerResult i u tr.request .noReply (s.ended i (unheardRec tr.request))
      | none => grant i (s.ended i (unheardRec tr.request))) := by
  have hup := up_of_online hon
  refine congrArg Host.Outcome.next ((timeoutExpiry_inFlight hp hfl).trans ?_)
  cases ho : tr.owner with
  | none => rw [endTransaction_timeout_orphan hup hm ho, linkEffects_noReply]
  | some u => rw [endTransaction_timeout hup hm ho, linkEffects_noReply]

/-- Whoever takes the result, the counters, the mode and the state of an ONLINE station are those of the transaction's
end. -/
theorem owner_core (hf : CountsOnly f) (hon : (s.stn i).state = .online) {r : TxResult} (o : Option LinkUser) :
    ((match o with
      | some u => ownerResult i u q r (s.ended i f)
      | none => grant i (s.ended i f)).stn i).core = (f (s.stn i)).core := by
  have hstate : ((s.ended i f).stn i).state = .online := by rw [ended_stn_self, hf.state, hon]
  have hstn : ((s.ended i f).stn i).core = (f (s.stn i)).core := by rw [ended_stn_self]
  cases o with
  | none => exact (core_of_outside (grant_outside i _) i).trans hstn
  | some u => exact (core_of_outside (ownerResult_outside hstate) i).trans hstn

/-! ### The loss of a link -/

theorem dropRelease_frame (i : Station) (s : State) : dropRelease i s = s.setPorts (dropRelease i s).ports := by
  unfold dropRelease
  split
  · rfl
  · split <;> rfl

/-- The output of a station that leaves ONLINE is asserted (R32). -/
theorem dropRelease_asserted (hp : s.portOf i = some p) (hd : (s.port p).holder = none → (s.port p).driven = .asserted) :
    ((dropRelease i s).port p).driven = .asserted := by
  simp only [dropRelease, hp]
  cases hh : (s.port p).holder with
  | none => simpa [hh] using hd hh
  | some h => simp [syncMonitor, InhibitPort.reasserted]

/-- A sound output without a holder is asserted (R26). -/
theorem asserted_of_sound {r : InhibitPort} (h : r.sound) (hh : r.holder = none) : r.driven = .asserted := by
  unfold InhibitPort.sound at h
  cases hd : r.driven with
  | asserted => rfl
  | released =>
    rw [hd] at h
    simp [hh] at h

/-- A station that goes to DOWN (R9). -/
theorem goDown_spec (i : Station) (s : State) :
    (goDown i s).stn i = { (s.stn i).lost with state := .down } ∧ ((goDown i s).link i).holder = some .bringUp
      ∧ ((goDown i s).link i).identTimer = some 1000 ∧ ((goDown i s).link i).inFlight = (s.link i).inFlight
      ∧ (goDown i s).events = s.events ∧ (goDown i s).changeover = s.changeover ∧ (goDown i s).guardTime = s.guardTime
      ∧ ∀ p, s.portOf i = some p → ((s.port p).holder = none → (s.port p).driven = .asserted) →
          ((goDown i s).port p).driven = .asserted := by
  obtain ⟨y, hy⟩ : ∃ y, y = setStState i .down (s.modStn i (fun r => r.lost)) := ⟨_, rfl⟩
  have hdown : goDown i s = startBringUp i (dropSweep i (dropRelease i y)) := by rw [hy]; rfl
  have hframe := dropRelease_frame i y
  have hlink : (goDown i s).link i = { s.link i with holder := some .bringUp, waiters := [], identTimer := some Config.identWait, training := none, pollTimer := none } := by
    rw [hdown, startBringUp, link_modLink_self, dropSweep_eq, State.setSched_link, hframe, State.setPorts_link, hy,
      setStState_link, State.modStn_link]
  refine ⟨?_, by rw [hlink], by rw [hlink]; rfl, by rw [hlink], ?_, ?_, ?_, fun p hp hd => ?_⟩
  · rw [hdown, startBringUp, State.modLink_stn, dropSweep_eq, State.setSched_stn, hframe, State.setPorts_stn, hy,
      setStState_stn_self, stn_modStn_self]
  · rw [hdown, startBringUp, State.modLink_events, dropSweep_eq, State.setSched_events, hframe, State.setPorts_events, hy,
      setStState_events, State.modStn_events]
  · rw [hdown, startBringUp, State.modLink_changeover, dropSweep_eq, State.setSched_changeover, hframe,
      State.setPorts_changeover, hy, setStState_changeover, State.modStn_changeover]
  · rw [hdown, startBringUp, State.modLink_guardTime, dropSweep_eq, State.setSched_guardTime, hframe,
      State.setPorts_guardTime, hy, setStState_guardTime, State.modStn_guardTime]
  · have hyp : y.portOf i = some p := by rw [hy, setStState_portOf, State.modStn_portOf, hp]
    have hport : (goDown i s).port p = (dropRelease i y).port p := by
      rw [hdown, startBringUp, State.modLink_port, dropSweep_eq, State.setSched_port]
    rw [hport]
    refine dropRelease_asserted hyp fun hh => ?_
    have hys : y.port p = { s.port p with monitor := (y.port p).monitor } := by
      rw [hy, setStState_port (s := s.modStn i fun r => r.lost) hp]
      rfl
    rw [hys] at hh ⊢
    exact hd hh

theorem controllerLost_other {cause : Cause} (h : i ∉ s.changeover.stations) : controllerLost i cause s = s := if_neg h

/-- The third reply missed in a row by a presence poll loses the link (R9). -/
theorem timeout_third (ha : Alone s i seq .state .presence) (hon : (s.stn i).state = .online)
    (hm : (s.stn i).missed = 2) (hi : i ∉ s.changeover.stations) :
    exec (.replyTimeout i) s
      = .next (post (.station i) (.linkDown .online) (goDown i (s.ended i (unheardRec .state)))) := by
  obtain ⟨hp, -, hw, ms, hfl⟩ := ha
  have hup := up_of_online hon
  obtain ⟨x, hx⟩ : ∃ x, x = s.ended i (unheardRec .state) := ⟨_, rfl⟩
  have hxstn : x.stn i = unheardRec .state (s.stn i) := by rw [hx, ended_stn_self]
  have hxw : (x.link i).waiters = [] := by rw [hx, ended_link_self]; exact hw
  have hxup : x.up i = true := by
    refine up_of_online ?_
    rw [hxstn]
    exact hon
  have hthree : 3 ≤ (x.stn i).missed := by
    rw [hxstn]
    simp [unheardRec, hm]
  have hleft : (x.stn i).state = .online := by rw [hxstn]; exact hon
  have hland : s.modLink i (fun l => { l with inFlight := none }) = s.landed i := rfl
  have hend : endTransaction i { seq := seq, request := .state, owner := some .presence, timeout := ms } .noReply s
      = linkLoss i id x := by
    simp only [endTransaction, hland, countMissed_noReply hup, linkEffects_noReply, ← hx]
    rw [if_pos ⟨hxup, hthree⟩]
    rfl
  have hchange : i ∉ (goDown i x).changeover.stations := by
    rw [(goDown_spec i x).2.2.2.2.2.1, hx]
    exact hi
  have hloss : linkLoss i id x = post (.station i) (.linkDown .online) (goDown i x) := by
    simp only [linkLoss, hxw, hleft, List.foldl_nil, id_eq, controllerLost_other hchange]
  rw [← hx]
  exact congrArg Host.Outcome.next ((timeoutExpiry_inFlight hp hfl).trans (hend.trans hloss))

/-! ### O48 -/

/-- A reply frame that answers nothing outstanding is discarded (R7, R180). -/
theorem stationBytes_discarded {kind : Byte} {body : List Byte}
    (h : ∀ (r : StationReply) (tr : Transaction), parseReply kind body = some r → (s.link i).inFlight = some tr →
      tr.seq = seq → answers tr.request r = true → wellFormedReply tr.request r = false) :
    stationBytes i { kind := kind, tag := seq, body := body } s = s := by
  by_cases hp : s.power = .running
  · rw [stationBytes, whenRunning_running _ s hp]
    simp only
    cases hr : parseReply kind body with
    | none => rfl
    | some r =>
      simp only [stationFrame]
      cases hfl : (s.link i).inFlight with
      | none => rfl
      | some tr =>
        refine if_neg ?_
        rintro ⟨h1, h2, h3⟩
        rw [h r tr hr hfl h1 h2] at h3
        exact Bool.false_ne_true h3
  · exact whenRunning_else _ s hp

/-- The last part of O48: the passing of the link. -/
theorem link_passes (i : Station) (seq reason : Byte) (before after : List LinkUser) (u : LinkUser) (q : StationRequest)
    (tr : Transaction) (why : RejectReason) (s : State) (hp : s.power = .running) (hon : (s.stn i).state = .online)
    (hfl : (s.link i).inFlight = some tr) (hseq : tr.seq = seq) (hwhy : rejectOf reason = some why)
    (hw : (s.link i).waiters = before ++ u :: after) (hb : ∀ v ∈ before, u.rank < v.rank)
    (ha : ∀ v ∈ after, u.rank ≤ v.rank) (hfirst : FirstRequest s i u q) :
    let passes (c : Instr) : Prop := ∃ t, exec c s = .next t ∧ (t.link i).holder = some u
      ∧ (t.link i).waiters = before ++ after
      ∧ (t.link i).inFlight = some
        { seq := (s.stn i).nextSeq, request := q, owner := some u, timeout := s.roster[i].replyTimeout }
      ∧ t.events = s.events ∧ ∀ j : Station, j ≠ i → t.stn j = s.stn j ∧ t.link j = s.link j
    (tr.owner = none → (s.link i).holder = none →
      passes (.rejectReply i seq reason) ∧ ((s.stn i).missed < 2 → passes (.replyTimeout i)))
    ∧ (tr.owner = some .presence → (s.link i).holder = some .presence → u ≠ .presence → .presence ∉ before →
        .presence ∉ after → passes (.rejectReply i seq reason)) := by
  intro passes
  have orphan : ∀ (c : Instr) (f : StationRec → StationRec), CountsOnly f → (s.link i).holder = none →
      exec c s = .next (grant i (s.ended i f)) → passes c := fun c f hf hh hex =>
    ⟨_, hex, grant_first (g := fun l => { l with inFlight := none }) hf hh rfl hw hb ha hfirst⟩
  refine ⟨fun ho hh => ⟨?_, fun hm => ?_⟩, fun ho hh hu hnb hna => ?_⟩
  · have hex := exec_rejectReply_any hp hon hfl hseq hwhy
    rw [ho] at hex
    exact orphan _ heardRec countsOnly_heard hh hex
  · have hex := exec_replyTimeout_any hp hon hfl hm
    rw [ho] at hex
    exact orphan _ (unheardRec tr.request) (countsOnly_unheard _) hh hex
  · have hex := exec_rejectReply_any hp hon hfl hseq hwhy
    rw [ho] at hex
    have hkept : (before ++ u :: after).filter (fun v => decide (v ≠ .presence)) = before ++ u :: after := by
      refine List.filter_eq_self.mpr fun v hv => decide_eq_true ?_
      rintro rfl
      rcases List.mem_append.mp hv with h | h
      · exact hnb h
      · rcases List.mem_cons.mp h with h | h
        · exact hu h.symm
        · exact hna h
    obtain ⟨ms, hms⟩ : ∃ ms : Nat, ms = (s.ended i heardRec).interval i := ⟨_, rfl⟩
    obtain ⟨g, hg⟩ : ∃ g : LinkRec → LinkRec, g = fun l =>
        { l with inFlight := none, pollTimer := some ms, holder := none, waiters := before ++ u :: after } := ⟨_, rfl⟩
    have hleft : dropUser i .presence (startPoll i (s.ended i heardRec)) = (s.modStn i heardRec).modLink i g := by
      have hpoll : startPoll i (s.ended i heardRec)
          = (s.ended i heardRec).modLink i (fun l => { l with pollTimer := some ms }) := by
        rw [hms]
        rfl
      have hended : s.ended i heardRec = (s.modStn i heardRec).modLink i (fun l => { l with inFlight := none }) := rfl
      rw [dropUser, hpoll, hended, modLink_modLink, modLink_modLink]
      refine modLink_congr ?_
      simp only [hg, State.modStn_link, hh, hw, hkept, if_true, Option.map_none]
    have hgrant : ownerResult i .presence tr.request (.reject why) (s.ended i heardRec)
        = grant i ((s.modStn i heardRec).modLink i g) := congrArg (grant i) hleft
    refine ⟨_, hex.trans (congrArg _ hgrant), ?_⟩
    have hspec := grant_first (s := s) (i := i) (u := u) (q := q) (f := heardRec) (g := g) (before := before) (after := after)
      countsOnly_heard (by rw [hg]) (by rw [hg]) (by rw [hg]) hb ha hfirst
    exact hspec

/-- Settles O48. -/
theorem rejectsAndTimeouts : Obligations.RejectsAndTimeouts := by
  refine ⟨?_, ?_, ?_, ?_, ?_, ?_, ?_⟩
  · intro i seq reason tr why s hp hon hfl hseq hwhy
    refine ⟨_, exec_rejectReply_any hp hon hfl hseq hwhy, ?_⟩
    have hcore := owner_core (q := tr.request) (r := .reject why) countsOnly_heard hon tr.owner
    exact ⟨(congrArg StationRec.missed hcore :), (congrArg StationRec.expected hcore :),
      (congrArg StationRec.uncertain hcore :), (congrArg StationRec.mode hcore :)⟩
  · intro i seq reason why s ha hon hwhy interval
    refine (exec_rejectReply ha (up_of_online hon) hwhy).trans (congrArg _ ?_)
    exact presence_heard ha (fun _ => rfl) (fun _ => rfl)
  · intro i seq reason b o n why op s ha hon hwhy hs hw h1 h2 h3 hn
    have hslot : ((s.ended i heardRec).stn i).slot = some op := by rw [ended_stn_self]; exact hs
    have hres : toolResult i (.read b o n) (.reject why) (s.ended i heardRec)
        = deliver i op (.failed op.block (.reject why))
          ((s.modStn i (fun r => { r with missed := 0, slot := none })).freed i) := by
      simp only [toolResult, hslot]
      rw [if_neg (by simp [hw])]
      refine (endToolRead_eq (by simp [ha.waiters])).trans ?_
      rw [ended_closed (g := fun r => { r with missed := 0, slot := none }) ha.holder ha.waiters hn fun _ => rfl]
      rfl
    exact (exec_rejectReply ha (up_of_online hon) hwhy).trans (congrArg _ (hres.trans (if_pos ⟨h1, h2, h3⟩)))
  · intro i tr s hp hon hfl hm
    refine ⟨_, exec_replyTimeout_any hp hon hfl hm, ?_⟩
    have hcore := owner_core (q := tr.request) (r := .noReply) (countsOnly_unheard tr.request) hon tr.owner
    refine ⟨((congrArg StationRec.state hcore :)).trans hon, (congrArg StationRec.missed hcore :), fun b o ws hq => ?_,
      (congrArg StationRec.expected hcore :)⟩
    refine ((congrArg StationRec.uncertain hcore :)).trans ?_
    rw [hq]
    simp [unheardRec, StationRequest.isWrite, StationRec.core]
  · intro i seq s ha hon hm hi hmap hrel
    obtain ⟨h1, h2, h3, h4, h5, -, h7, h8⟩ := goDown_spec i (s.ended i (unheardRec .state))
    refine ⟨_, timeout_third ha hon hm hi, ?_, h2, h3, ?_, fun p hp => ?_, ?_⟩
    · rw [post_stn, h1, ended_stn_self]
      rfl
    · rw [post_link, h4, ended_link_self]
    · have hp' : s.portOf i = some p := portOf_of_map hmap hp
      exact h8 p hp' (asserted_of_sound (hrel p).1)
    · rw [post_events, h5, h7]
      rfl
  · intro i seq kind body s h
    exact ⟨congrArg _ (stationBytes_discarded h), congrArg _ (stationBytes_discarded h)⟩
  · intro i seq reason before after u q tr why s hp hon hfl hseq hwhy hw rank hb ha hfirst
    have hrank : ∀ v, rank v = v.rank := fun v => by cases v <;> rfl
    exact link_passes i seq reason before after u q tr why s hp hon hfl hseq hwhy hw
      (fun v hv => by rw [← hrank, ← hrank]; exact hb v hv) (fun v hv => by rw [← hrank, ← hrank]; exact ha v hv) hfirst

end Sys2Proof.Machine
end

section
/-! SUPPORT. The ends of a changeover, a revert and a restore that have been verified. -/

namespace Sys2Proof.Machine

open Sys2Proof

variable {s t w x y : State} {i j : Station} {e : AuditEntry} {st : Step} {seq : Byte} {ws : List Word} {m k f : Nat}
  {held : List Station} {done : Detail}

/-! ### The values that are committed -/

/-- Values committed where an index is named with one value only, however often (R73). -/
theorem tableGet_commits (vs : List (Nat × Int)) (ps : List (Nat × Param)) {key : Nat} {v : Int} {p : Param}
    (hall : ∀ a, (key, a) ∈ vs → a = v) (hm : (key, v) ∈ vs) (hp : tableGet ps key = some p) :
    tableGet (vs.foldl (fun ps c => tableMod ps c.1 (fun q => q.commit c.2)) ps) key = some (p.commit v) := by
  induction vs generalizing ps p with
  | nil => cases hm
  | cons c vs ih =>
    obtain ⟨key', a⟩ := c
    have hrest : ∀ a, (key, a) ∈ vs → a = v := fun a ha => hall a (List.mem_cons_of_mem _ ha)
    rw [List.foldl_cons]
    by_cases hk : key = key'
    · subst hk
      obtain rfl : a = v := hall a List.mem_cons_self
      have hnew : tableGet (tableMod ps key (fun q => q.commit a)) key = some (p.commit a) := by
        rw [tableGet_tableMod, if_pos rfl, hp]
        rfl
      by_cases hin : (key, a) ∈ vs
      · exact ih (p := p.commit a) _ hrest hin hnew
      · refine (tableGet_foldl_of_not_mem (fun v q => Param.commit q v) vs _ key fun b hb => hin ?_).trans hnew
        exact hrest b hb ▸ hb
    · have hin : (key, v) ∈ vs := (List.mem_cons.mp hm).resolve_left fun h => hk (congrArg Prod.fst h)
      refine ih _ hrest hin ?_
      rw [tableGet_tableMod, if_neg hk]
      exact hp

/-! ### Entries at the end of an operation -/

theorem resolve_frame (e : AuditEntry) (rs : List (Nat × Recipe)) (ims : List Image) (f : Nat) :
    (e.resolve rs ims f).station = e.station ∧ (e.resolve rs ims f).block = e.block ∧ (e.resolve rs ims f).cls = e.cls := by
  by_cases hc : e.cls = some .format
  · cases hi : resolvedImage rs f e.station e.block with
    | some id =>
      rw [resolve_some ims hc hi]
      exact ⟨rfl, rfl, rfl⟩
    | none =>
      rw [resolve_none ims hc hi]
      exact ⟨rfl, rfl, rfl⟩
  · rw [resolve_of_not_format _ _ _ hc]
    exact ⟨rfl, rfl, rfl⟩

/-- An entry resolved, then released and resolved again, is as if released first (R119, R121). -/
theorem resolve_released {rs : List (Nat × Recipe)} {ims : List Image} (hc : e.cls = some .format) :
    (e.resolve rs ims f).released held rs ims f = (e.woken held).resolve rs ims f := by
  obtain ⟨hst, hbl, hcls⟩ := resolve_frame e rs ims f
  by_cases hm : e.station ∈ held
  · rw [AuditEntry.released, if_pos (by rw [hst]; exact hm)]
    have hcw : ((e.resolve rs ims f).woken held).cls = some .format := (woken_cls _ _).trans (hcls.trans hc)
    have hce : (e.woken held).cls = some .format := (woken_cls _ _).trans hc
    cases hi : resolvedImage rs f e.station e.block with
    | some id =>
      rw [resolve_some ims hcw (by rw [woken_station, woken_block, hst, hbl]; exact hi),
        resolve_some ims hce (by rw [woken_station, woken_block]; exact hi), resolve_some ims hc hi]
      by_cases hsus : e.state = .suspended
      · simp [AuditEntry.woken, hm, hsus]
      · by_cases hna : e.state = .notApplicable <;> simp [AuditEntry.woken, hm, hsus, hna]
    | none =>
      rw [resolve_none ims hcw (by rw [woken_station, woken_block, hst, hbl]; exact hi),
        resolve_none ims hce (by rw [woken_station, woken_block]; exact hi), resolve_none ims hc hi]
      by_cases hsus : e.state = .suspended
      · simp [AuditEntry.woken, hm, hsus]
      · by_cases hd : e.state = .drift <;> simp [AuditEntry.woken, hm, hsus, hd]
  · rw [AuditEntry.released, if_neg (by rw [hst]; exact hm), woken_of_not_mem hm]

/-- An entry of another class is only woken. -/
theorem released_of_not_format {rs : List (Nat × Recipe)} {ims : List Image}
    (h : ¬ (e.cls = some .format ∧ e.station ∈ held)) : e.released held rs ims f = e.woken held := by
  rw [AuditEntry.released]
  by_cases hm : e.station ∈ held
  · rw [if_pos hm, resolve_of_not_format]
    rw [woken_cls]
    exact fun hc => h ⟨hc, hm⟩
  · rw [if_neg hm, woken_of_not_mem hm]

theorem woken_recomputed (idxs : List Nat) (ps : List (Nat × Param)) (ims : List Image) (e : AuditEntry) :
    (e.recomputed idxs ps ims).woken held = { e.woken held with expected := (e.recomputed idxs ps ims).expected } := by
  rw [recomputed_eq, AuditEntry.woken, AuditEntry.woken]
  by_cases h : e.station ∈ held ∧ e.state = .suspended
  · rw [if_pos h, if_pos h]
  · rw [if_neg h, if_neg h]

theorem recomputed_of_format {idxs : List Nat} {ps : List (Nat × Param)} {ims : List Image} (h : e.cls = some .format) :
    e.recomputed idxs ps ims = e := recomputed_of_not_tunable (by rw [h]; exact nofun)

theorem recomputed_cls (idxs : List Nat) (ps : List (Nat × Param)) (ims : List Image) (e : AuditEntry) :
    (e.recomputed idxs ps ims).cls = e.cls := by rw [recomputed_eq]

theorem recomputed_station (idxs : List Nat) (ps : List (Nat × Param)) (ims : List Image) (e : AuditEntry) :
    (e.recomputed idxs ps ims).station = e.station := by rw [recomputed_eq]

/-- An entry of the stations held at the end of a revert (R152). -/
theorem entryReleased_held {vs : List (Nat × Int)} (hplaces : SamePlaces s.params t.params)
    (ht : t.audit[m]? = some ((e.recomputed (vs.map (fun c => c.1)) t.params s.images).released held s.recipes s.images f)) :
    EntryReleased held f false vs s t m e := by
  refine EntryReleased.of_values hplaces (fun hc hm => ?_) (fun hn => ?_)
  · rw [ht, recomputed_of_format hc, AuditEntry.released, if_pos (hm.resolve_left Bool.false_ne_true)]
  · rw [ht, released_of_not_format, woken_recomputed]
    rw [recomputed_cls, recomputed_station]
    exact fun h => hn ⟨h.1, .inr h.2⟩

/-- An entry at the end of a changeover, which resolves every FORMAT entry (R149, R119). -/
theorem entryReleased_everywhere {vs : List (Nat × Int)} (hplaces : SamePlaces s.params t.params)
    (ht : t.audit[m]? = some (((e.recomputed (vs.map (fun c => c.1)) t.params s.images).resolve s.recipes s.images f).released
      held s.recipes s.images f)) : EntryReleased held f true vs s t m e := by
  refine EntryReleased.of_values hplaces (fun hc _ => ?_) (fun hn => ?_)
  · rw [ht, recomputed_of_format hc, resolve_released hc]
  · have hc : (e.recomputed (vs.map (fun c => c.1)) t.params s.images).cls ≠ some .format := by
      rw [recomputed_cls]
      exact fun h => hn ⟨h, .inl rfl⟩
    rw [ht, resolve_of_not_format _ _ _ hc, released_of_not_format fun h => hc h.1, woken_recomputed]

/-! ### The end of an operation -/

/-- The hold ends, the controller is IDLE, and OPERATION_DONE is posted (R121, R149, R152, R154). -/
def State.concluded (w : State) (held : List Station) (done : Detail) : State :=
  post .controller done (modCh (fun _ => .idle) (auditRelease held w))

theorem concluded_eq : w.concluded held done = post .controller done (modCh (fun _ => .idle)
    (w.setAudit (w.audit.map (AuditEntry.released held w.recipes w.images w.activeFormat)))) := by
  rw [State.concluded, auditRelease_eq]

@[simp] theorem concluded_changeover : (w.concluded held done).changeover = .idle := rfl
@[simp] theorem concluded_stn (j : Station) : (w.concluded held done).stn j = w.stn j := rfl
@[simp] theorem concluded_link (j : Station) : (w.concluded held done).link j = w.link j := rfl
@[simp] theorem concluded_port (p : Port) : (w.concluded held done).port p = w.port p := rfl
@[simp] theorem concluded_params : (w.concluded held done).params = w.params := rfl
@[simp] theorem concluded_sched : (w.concluded held done).sched = w.sched := rfl
@[simp] theorem concluded_activeFormat : (w.concluded held done).activeFormat = w.activeFormat := rfl
@[simp] theorem concluded_events : (w.concluded held done).events = postEvent w.guardTime .controller done w.events := rfl

theorem concluded_audit : (w.concluded held done).audit
    = w.audit.map (AuditEntry.released held w.recipes w.images w.activeFormat) := by
  rw [concluded_eq, post_audit, modCh_audit, State.setAudit_audit]

/-- A state with what the end of an operation changes set aside. -/
def endMask (s z : State) : State :=
  { z with
    activeFormat := s.activeFormat
    params := s.params
    audit := s.audit
    sched := s.sched
    changeover := s.changeover
    stations := s.stations
    links := s.links
    ports := s.ports
    events := s.events }

theorem endMask_of_worksOn (h : WorksOn s y) : endMask s y = s := (congrArg (endMask s) h :)

theorem endMask_concluded : endMask s (w.concluded held done) = endMask s w := rfl

theorem endMask_setFormats (v : FormatState) : endMask s (setFormats held v w) = endMask s w :=
  (congrArg (endMask s) (setFormats_frame held v w) :)

theorem endMask_valued {vs : List (Nat × Int)} {g : Int → Param → Param} : endMask s (w.valued vs g) = endMask s w := rfl

theorem setFormats_record (v : FormatState) (j : Station) :
    (setFormats held v w).stn j = { w.stn j with format := if j ∈ held then v else (w.stn j).format } := by
  rw [setFormats_stn]
  split <;> rfl

/-- The values of a changeover's recipe committed, and every FORMAT entry resolved against the target (R149). -/
def State.committed (y : State) (held : List Station) (f : Nat) (vs : List (Nat × Int)) : State :=
  setFormats held (.fmt f) (resolveAll (State.valued { y with activeFormat := f } vs (fun v p => p.commit v)))

theorem commitChangeover_eq {r : Recipe} (ht : y.changeover.target = some f) (hr : tableGet y.recipes f = some r) :
    commitChangeover y = (y.committed y.changeover.stations f r.values).concluded y.changeover.stations
      (.operationDone .changeover .committed f none) := by
  simp only [commitChangeover, ht, Option.getD_some, hr, commitValues_eq]
  rfl

theorem committed_audit {vs : List (Nat × Int)} : (y.committed held f vs).audit = (y.audit.map
    (AuditEntry.recomputed (vs.map (fun c => c.1)) (y.committed held f vs).params y.images)).map
    (fun e => e.resolve y.recipes y.images f) := by
  rw [State.committed, setFormats_audit, setFormats_params]
  rfl

theorem committed_sched {vs : List (Nat × Int)} : (y.committed held f vs).sched
    = (resolveAll (State.valued { y with activeFormat := f } vs (fun v p => p.commit v))).sched := setFormats_sched _ _ _

theorem revertSuccess_eq (ht : y.changeover.target = some f) :
    revertSuccess y = (setFormats y.changeover.stations (.fmt f) (y.valued (revertValues y) (fun v p => p.commit v))).concluded
      y.changeover.stations (.operationDone .revert .reverted f none) := by
  simp only [revertSuccess, ht, Option.getD_some, commitValues_eq]
  rfl

/-- An entry restored (R154). -/
def AuditEntry.restored (time : Nat) (e : AuditEntry) : AuditEntry :=
  { e with drift := none, state := .matched, lastCheck := some time, lastOutcome := some .matched }

theorem restoreSuccess_eq (hk : y.changeover.restoreEntry = some k) :
    restoreSuccess y = (y.modEntry k (AuditEntry.restored y.guardTime)).concluded y.changeover.stations
      (.operationDone .restore .restored k none) := by
  simp only [restoreSuccess, hk, Option.getD_some]
  rfl

/-- The last step of VERIFYING is followed by the end (R148). -/
theorem nextStep_last (hpos : s.changeover.position = some k) (hlen : k + 1 = s.changeover.work.length)
    (hver : s.changeover.state = .verifying) : nextStep s = succeed s := by
  unfold nextStep
  simp only [hpos, Option.getD_some]
  rw [if_neg (by omega), if_neg (by rw [hver]; exact nofun)]

theorem succeed_changeover (hk : s.changeover.kind = some .changeover) : succeed s = commitChangeover s := by
  simp only [succeed, Changeover.kindOf, hk, Option.getD_some]

theorem succeed_revert (hk : s.changeover.kind = some .revert) : succeed s = revertSuccess s := by
  simp only [succeed, Changeover.kindOf, hk, Option.getD_some]

theorem succeed_restore (hk : s.changeover.kind = some .restore) : succeed s = restoreSuccess s := by
  simp only [succeed, Changeover.kindOf, hk, Option.getD_some]

/-! ### O46 -/

/-- The state in which the last step has been verified. -/
structure Verified (i : Station) (s y : State) : Prop where
  works : WorksOn s y
  controller : { y.changeover with done := 0, got := [] } = { s.changeover with done := 0, got := [] }
  record : ∀ j, y.stn j = { s.stn j with missed := if j = i then 0 else (s.stn j).missed }
  link : y.link i = { s.link i with holder := none, inFlight := none }
  links : ∀ j, j ≠ i → y.link j = s.link j
  ports : ∀ p : Port, (s.port p).holder ≠ some .changeover → y.port p = s.port p

section
variable (h : Verified i s y)
include h

theorem Verified.stations : y.changeover.stations = s.changeover.stations := (congrArg Changeover.stations h.controller :)
theorem Verified.target : y.changeover.target = s.changeover.target := (congrArg Changeover.target h.controller :)
theorem Verified.kind : y.changeover.kind = s.changeover.kind := (congrArg Changeover.kind h.controller :)
theorem Verified.work : y.changeover.work = s.changeover.work := (congrArg Changeover.work h.controller :)
theorem Verified.position : y.changeover.position = s.changeover.position := (congrArg Changeover.position h.controller :)
theorem Verified.state : y.changeover.state = s.changeover.state := (congrArg Changeover.state h.controller :)
theorem Verified.restoreEntry : y.changeover.restoreEntry = s.changeover.restoreEntry :=
  (congrArg Changeover.restoreEntry h.controller :)
theorem Verified.audit : y.audit = s.audit := (congrArg State.audit h.works :)
theorem Verified.recipes : y.recipes = s.recipes := (congrArg State.recipes h.works :)
theorem Verified.activeFormat : y.activeFormat = s.activeFormat := (congrArg State.activeFormat h.works :)
theorem Verified.sched : y.sched = s.sched := (congrArg State.sched h.works :)
theorem Verified.guardTime : y.guardTime = s.guardTime := (congrArg State.guardTime h.works :)

end

theorem verified_stepEnded {g : Changeover → Changeover} (hg : { g s.changeover with done := 0, got := [] }
      = { s.changeover with done := 0, got := [] }) (hh : (s.link i).holder = some .changeover)
    (hw : (s.link i).waiters = []) : Verified i s (s.stepEnded i heardRec g) where
  works := worksOn_stepEnded s i heardRec g
  controller := by rw [stepEnded_changeover, hg]
  record j := by
    rw [stepEnded_stn]
    by_cases hj : j = i
    · rw [if_pos hj, if_pos hj]
      rfl
    · rw [if_neg hj, if_neg hj]
  link := by rw [stepEnded_link hh hw, if_pos rfl]
  links j hj := by rw [stepEnded_link hh hw, if_neg hj]
  ports p hp := stepEnded_port_other (.inr hp)

/-- Words that complete the last step of VERIFYING end the operation. -/
theorem dataReply_last {b o n : Nat} {last : Step}
    (hmatch : match last with
      | .block _ _ _ im => s.changeover.done = s.changeover.got.length
          ∧ s.changeover.got.length + n = (imageWords s.images im).length
          ∧ imagePrint s.images im = some (fingerprint (s.changeover.got ++ ws))
      | .values _ items => s.changeover.done + 1 = items.length ∧ ∃ key v p,
          items[s.changeover.done]? = some (key, v) ∧ tableGet s.params key = some p ∧ ws = p.encode v
      | .restore _ _ words => s.changeover.done = s.changeover.got.length ∧ s.changeover.got ++ ws = words)
    (ha : Alone s i seq (.read b o n) .changeover)
    (hon : (s.stn i).state = .online) (hlen : ws.length = n) (hver : s.changeover.state = .verifying)
    (hpos : s.changeover.position = some k) (hlast : k + 1 = s.changeover.work.length)
    (hwork : s.changeover.work[k]? = some last) (hst : last.station = i) :
    ∃ y, Verified i s y ∧ exec (.dataReply i seq ws) s = .next (succeed y) := by
  have hstep : s.changeover.step = some last := by simp only [Changeover.step, hpos, hwork]
  have hv : ValueAgrees s last ws := by
    cases last with
    | values j items => exact hmatch.2
    | block j b pass im => trivial
    | restore j b words => trivial
  have hw : WrittenWhole s last (s.changeover.read last ws).done := by
    cases last with
    | values j items => exact Nat.le_of_eq hmatch.1.symm
    | block j b pass im =>
      show (imageWords s.images im).length ≤ s.changeover.done + ws.length
      omega
    | restore j b words =>
      show words.length ≤ s.changeover.done + ws.length
      rw [← hmatch.2, List.length_append, hmatch.1]
  have hg : WholeAgrees s last (s.changeover.read last ws).got := by
    cases last with
    | values j items => trivial
    | block j b pass im => exact hmatch.2.2
    | restore j b words => exact hmatch.2
  have hkept : { s.changeover.read last ws with done := 0, got := [] } = { s.changeover with done := 0, got := [] } := by
    cases last <;> rfl
  have hy := verified_stepEnded (g := Changeover.read last ws) hkept ha.holder ha.waiters
  refine ⟨_, hy, (exec_dataReply_stepWhole ha hon hlen hstep hst hv hw hg).trans (congrArg _ ?_)⟩
  exact nextStep_last (hy.position.trans hpos) (hlast.trans (congrArg List.length hy.work.symm)) (hy.state.trans hver)

/-- Settles O46. -/
theorem verifiedOperationsEnd : Obligations.VerifiedOperationsEnd := by
  intro i seq b o n k ws last s ha hon hlen hver hpos hlast hwork hst hmatch held takes ended
  obtain ⟨y, hy, hex⟩ := dataReply_last hmatch ha hon hlen hver hpos hlast hwork hst
  have finish : ∀ (w : State) (format : Station → FormatState) (done : Detail),
      exec (.dataReply i seq ws) s = .next (w.concluded held done) →
      (∀ j, w.stn j = { y.stn j with format := format j }) → (∀ j, w.link j = y.link j) → (∀ p, w.port p = y.port p) →
      w.audit.length = s.audit.length → w.events = y.events → w.guardTime = s.guardTime → endMask s w = endMask s y →
      ended format done (w.concluded held done) := by
    intro w format done hx hstn hlink hport haud hev htime hmask
    refine ⟨hx, rfl, ?_, fun j hj => ?_, fun p hp => ?_, fun j => ?_, ?_, ?_, ?_⟩
    · rw [concluded_link, hlink, hy.link]
    · rw [concluded_link, hlink, hy.links j hj]
    · rw [concluded_port, hport, hy.ports p hp]
    · rw [concluded_stn, hstn, hy.record]
    · rw [concluded_audit, List.length_map, haud]
    · rw [concluded_events, hev, htime, hy.works.events]
    · exact endMask_concluded.trans (hmask.trans (endMask_of_worksOn hy.works))
  have commits : ∀ (vs : List (Nat × Int)) (t x : State), x.params = s.params →
      t.params = (x.valued vs (fun v p => p.commit v)).params → takes vs t ∧ SamePlaces s.params t.params := by
    intro vs t x hx ht
    have hval : t.params = vs.foldl (fun ps c => tableMod ps c.1 (fun q => q.commit c.2)) s.params := by
      rw [ht, ← hx]
      rfl
    refine ⟨⟨fun key v p hm hall hp => ?_, fun key hn => ?_⟩, ?_⟩
    · rw [hval]
      exact tableGet_commits vs s.params (fun a ha => hall a ha) hm hp
    · rw [ht, valued_params_of_not_mem hn, hx]
    · rw [ht, ← hx]
      exact valued_places fun _ _ => rfl
  refine ⟨fun f r hk htar hr => ?_, fun f hk htar => ?_, fun entry e hk hentry he => ?_⟩
  · have hcom := commitChangeover_eq (y := y) (hy.target.trans htar) (by rw [hy.recipes]; exact hr)
    rw [hy.stations] at hcom
    rw [succeed_changeover (hy.kind.trans hk), hcom] at hex
    obtain ⟨z, hz⟩ : ∃ z, z = resolveAll (State.valued { y with activeFormat := f } r.values (fun v p => p.commit v)) := ⟨_, rfl⟩
    obtain ⟨w, hw⟩ : ∃ w, w = y.committed held f r.values := ⟨_, rfl⟩
    have hwz : w = setFormats held (.fmt f) z := by rw [hw, hz]; rfl
    rw [← hw] at hex
    have haud := committed_audit (y := y) (held := held) (f := f) (vs := r.values)
    rw [← hw, hy.audit, hy.works.images, hy.recipes] at haud
    have hpar : (w.concluded held (.operationDone .changeover .committed f none)).params
        = (State.valued { y with activeFormat := f } r.values (fun v p => p.commit v)).params := by
      rw [concluded_params, hwz, setFormats_params, hz]
      rfl
    obtain ⟨htakes, hplaces⟩ := commits r.values _ { y with activeFormat := f } hy.works.params hpar
    have hwf : w.activeFormat = f := by rw [hwz, setFormats_activeFormat, hz]; rfl
    have hwr : w.recipes = s.recipes := by rw [hwz, setFormats_recipes, hz]; exact hy.recipes
    have hwi : w.images = s.images := by rw [hwz, setFormats_images, hz]; exact hy.works.images
    have hws : w.sched = z.sched := by rw [hwz, setFormats_sched]
    have hzs : { z.sched with check := y.sched.check } = y.sched ∧ (y.sched.check = none → z.sched.check = none) := by
      rw [hz]
      refine ⟨rfl, fun hn => ?_⟩
      simp [resolveAll, hn]
    refine ⟨_, finish w _ _ hex (fun j => ?_) (fun j => ?_) (fun p => ?_) ?_ ?_ ?_ ?_, ?_, htakes, fun m e he => ?_, ?_⟩
    · rw [hwz, setFormats_record, hz]
      have hrec : (y.stn j).format = (s.stn j).format := by rw [hy.record]
      rw [← hrec]
      rfl
    · rw [hwz, setFormats_link, hz]
      rfl
    · rw [hwz, setFormats_port, hz]
      rfl
    · rw [haud, List.length_map, List.length_map]
    · rw [hwz, setFormats_events, hz]
      rfl
    · rw [hwz, setFormats_guardTime, hz]
      exact hy.guardTime
    · rw [hwz, endMask_setFormats, hz]
      rfl
    · rw [concluded_activeFormat, hwf]
    · refine entryReleased_everywhere hplaces ?_
      rw [concluded_audit, haud, hwr, hwi, hwf, List.getElem?_map, List.getElem?_map, List.getElem?_map, he]
      rfl
    · rw [concluded_sched, hws, ← hy.sched]
      exact hzs
  · intro written
    have hrev := revertSuccess_eq (y := y) (hy.target.trans htar)
    have hvals : revertValues y = written := by rw [revertValues, hy.work] <;> rfl
    rw [hy.stations, hvals] at hrev
    rw [succeed_revert (hy.kind.trans hk), hrev] at hex
    obtain ⟨z, hz⟩ : ∃ z, z = y.valued written (fun v p => p.commit v) := ⟨_, rfl⟩
    obtain ⟨w, hw⟩ : ∃ w, w = setFormats held (.fmt f) z := ⟨_, rfl⟩
    rw [← hz] at hex
    have hex' : exec (.dataReply i seq ws) s = .next (w.concluded held (.operationDone .revert .reverted f none)) := by
      rw [hw]
      exact hex
    have hpar : (w.concluded held (.operationDone .revert .reverted f none)).params
        = (y.valued written (fun v p => p.commit v)).params := by rw [concluded_params, hw, setFormats_params, hz]
    obtain ⟨htakes, hplaces⟩ := commits written _ y hy.works.params hpar
    have haud : w.audit = s.audit.map (AuditEntry.recomputed (written.map (fun c => c.1))
        (w.concluded held (.operationDone .revert .reverted f none)).params s.images) := by
      rw [hpar, hw, setFormats_audit, hz, valued_audit, hy.audit, hy.works.images]
    have hwf : w.activeFormat = s.activeFormat := by rw [hw, setFormats_activeFormat, hz]; exact hy.activeFormat
    have hwr : w.recipes = s.recipes := by rw [hw, setFormats_recipes, hz]; exact hy.recipes
    have hwi : w.images = s.images := by rw [hw, setFormats_images, hz]; exact hy.works.images
    refine ⟨_, finish w _ _ hex' (fun j => ?_) (fun j => ?_) (fun p => ?_) ?_ ?_ ?_ ?_, ?_, htakes, ?_, fun m e he => ?_⟩
    · rw [hw, setFormats_record, hz]
      have hrec : (y.stn j).format = (s.stn j).format := by rw [hy.record]
      rw [← hrec]
      rfl
    · rw [hw, setFormats_link, hz]
      rfl
    · rw [hw, setFormats_port, hz]
      rfl
    · rw [haud, List.length_map]
    · rw [hw, setFormats_events, hz]
      rfl
    · rw [hw, setFormats_guardTime, hz]
      exact hy.guardTime
    · rw [hw, endMask_setFormats, hz, endMask_valued]
    · rw [concluded_activeFormat, hwf]
    · rw [concluded_sched, hw, setFormats_sched, hz, valued_sched, hy.sched]
    · refine entryReleased_held hplaces ?_
      rw [concluded_audit, haud, hwr, hwi, hwf, List.getElem?_map, List.getElem?_map, he]
      rfl
  · have hres := restoreSuccess_eq (y := y) (hy.restoreEntry.trans hentry)
    rw [hy.stations] at hres
    rw [succeed_restore (hy.kind.trans hk), hres] at hex
    obtain ⟨w, hw⟩ : ∃ w, w = y.modEntry entry (AuditEntry.restored y.guardTime) := ⟨_, rfl⟩
    rw [← hw] at hex
    have hwf : w.activeFormat = s.activeFormat := by rw [hw]; exact hy.activeFormat
    have hwr : w.recipes = s.recipes := by rw [hw]; exact hy.recipes
    have hwi : w.images = s.images := by rw [hw]; exact hy.works.images
    have haud : w.audit = s.audit.modify entry (AuditEntry.restored s.guardTime) := by
      rw [hw, ← hy.audit, ← hy.guardTime]
      rfl
    have hself : (w.concluded held (.operationDone .restore .restored entry none)).audit[entry]?
        = some ((e.restored s.guardTime).released held s.recipes s.images s.activeFormat) := by
      rw [concluded_audit, haud, hwr, hwi, hwf, List.getElem?_map, List.getElem?_modify_eq, he]
      rfl
    refine ⟨_, finish w _ _ hex (fun j => ?_) (fun j => ?_) (fun p => ?_) ?_ ?_ ?_ ?_, ?_, ?_, ?_, ⟨fun hc => ?_,
      fun id hc hm hi => ?_⟩, fun m x hne hx => ?_⟩
    · rw [hw, State.modEntry_stn, hy.record]
    · rw [hw, State.modEntry_link]
    · rw [hw, State.modEntry_port]
    · rw [haud, List.length_modify]
    · rw [hw, State.modEntry_events]
    · rw [hw, State.modEntry_guardTime, hy.guardTime]
    · rw [hw]
      rfl
    · rw [concluded_activeFormat, hwf]
    · rw [concluded_params, hw, State.modEntry_params, hy.works.params]
    · rw [concluded_sched, hw, State.modEntry_sched, hy.sched]
    · rw [hself, released_of_not_format (e := e.restored s.guardTime) fun h => hc h.1]
      exact congrArg some (if_neg fun h => nomatch h.2)
    · have hwoken : (e.restored s.guardTime).woken held = e.restored s.guardTime := if_neg fun h => nomatch h.2
      rw [hself, AuditEntry.released, if_pos (show (e.restored s.guardTime).station ∈ held from hm), hwoken,
        resolve_some (e := e.restored s.guardTime) _ hc hi]
      rfl
    · refine entryReleased_of_released ?_
      rw [concluded_audit, haud, hwr, hwi, hwf, List.getElem?_map, List.getElem?_modify_ne _ _ (Ne.symm hne), hx]
      rfl

end Sys2Proof.Machine
end

section
/-! SUPPORT. The timers and senses of the inhibit ports, and what a fault of a port ends. -/

namespace Sys2Proof.Machine

open Sys2Proof

variable {s t x y q : State} {i j : Station} {u : LinkUser} {op : ToolOp} {p : Port} {st : Step} {c : Check} {ms : Nat}
  {o : RelayOutcome}

/-! ### A port is ready -/

/-- The settle timer of a port stops (R27). -/
def State.settled (s : State) (p : Port) : State := s.modPort p (fun r => { r with settleTimer := none })

theorem exec_releaseSettleExpiry {h : ReleaseHolder} (hp : s.power = .running) (ht : (s.port p).settleTimer = some ms)
    (hh : (s.port p).holder = some h) : exec (.releaseSettleExpiry p) s = .next (portReady h (s.settled p)) := by
  have hex : exec (.releaseSettleExpiry p) s = .next (settleExpiry p s) := rfl
  have hholder : ((s.settled p).port p).holder = some h := by rw [State.settled, port_modPort_self]; exact hh
  rw [hex, settleExpiry, whenRunning_running _ s hp, if_pos (by rw [ht]; rfl)]
  refine congrArg _ ?_
  show (match ((s.settled p).port p).holder with
    | some h => portReady h (s.settled p)
    | none => s.settled p) = _
  rw [hholder]

/-- The state after a port is ready keeps everything but what its holder sends. -/
theorem sameBut_settled (h : SameBut i (s.settled p) t) : SameBut i s { t with ports := s.ports } :=
  ⟨(congrArg (fun z : State => { z with ports := s.ports }) h.1 :), h.2⟩

theorem sameBut_settled_step (f : Changeover → Changeover) (h : SameBut i (s.settled p) t) :
    SameBut i s { modCh f t with ports := s.ports, changeover := s.changeover } :=
  ⟨(congrArg (fun z : State => { z with ports := s.ports, changeover := s.changeover }) h.1 :), h.2⟩

/-- The relay that holds a ready port sends its first WRITE (R27, R79). -/
theorem settle_tool (hp : s.power = .running) (ht : (s.port p).settleTimer = some ms)
    (hh : (s.port p).holder = some (.tool i)) (hs : (s.stn i).slot = some op) (hph : op.phase = .settling)
    (ha : op.acked = 0) :
    ∃ t, exec (.releaseSettleExpiry p) s = .next t ∧ t.port p = { s.port p with settleTimer := none }
      ∧ (t.stn i).slot = some { op with phase := .writing, writeSent := true }
      ∧ (t.link i).inFlight = some
        { seq := (s.stn i).nextSeq,
          request := .write op.block op.offset (op.words.take (min (s.stn i).wordsPerFrame op.words.length)),
          owner := some .tool, timeout := s.roster[i].replyTimeout }
      ∧ SameBut i s { t with ports := s.ports } ∧ t.events = s.events := by
  obtain ⟨r, hr⟩ : ∃ r : StationRequest, r
      = .write op.block op.offset (op.words.take (min (s.stn i).wordsPerFrame op.words.length)) := ⟨_, rfl⟩
  have hready : portReady (.tool i) (s.settled p) = modSlot i (fun op => { op with phase := .writing, writeSent := true })
      (sendRequest i r .tool (s.settled p)) := by
    have hs' : ((s.settled p).stn i).slot = some op := hs
    simp only [portReady, hs', hph, if_true]
    rw [sendToolWrite_first ha, hr]
    rfl
  have hex := exec_releaseSettleExpiry hp ht hh
  rw [hready] at hex
  rw [← hr]
  refine ⟨_, hex, ?_, ?_, ?_, ?_, ?_⟩
  · rw [modSlot_port, sendRequest_port, State.settled, port_modPort_self]
  · simp [State.settled, hs]
  · rw [modSlot_link, sendRequest_link_self]
    rfl
  · exact sameBut_settled ((sameBut_sendRequest i r .tool (s.settled p)).trans (sameBut_modSlot i _ _))
  · rw [modSlot_events, sendRequest_events]
    rfl

/-- The controller that holds a ready port sends its step's first WRITE (R27, R145). -/
theorem settle_step {block offset : Nat} {words : List Word} (hp : s.power = .running)
    (ht : (s.port p).settleTimer = some ms) (hh : (s.port p).holder = some .changeover)
    (hstep : s.changeover.step = some st) (hst : st.station = i) (hph : s.changeover.phase = .settling)
    (hn : NextWrite s st s.changeover.done block offset words) :
    ∃ t, exec (.releaseSettleExpiry p) s = .next t ∧ t.port p = { s.port p with settleTimer := none }
      ∧ t.changeover = { s.changeover with phase := .writing }
      ∧ (t.link i).inFlight = some
        { seq := (s.stn i).nextSeq, request := .write block offset words, owner := some .changeover,
          timeout := s.roster[i].replyTimeout }
      ∧ SameBut i s { t with ports := s.ports, changeover := s.changeover } ∧ t.events = s.events := by
  subst hst
  have hwrite : stepWrite (s.settled p) st (s.settled p).changeover.done = some (block, offset, words) :=
    stepWrite_of_nextWrite hn rfl rfl rfl
  have hready : portReady .changeover (s.settled p) = modCh Changeover.writing
      (sendRequest st.station (.write block offset words) .changeover (s.settled p)) := by
    have hstep' : (s.settled p).changeover.step = some st := hstep
    have hph' : (s.settled p).changeover.phase = .settling := hph
    simp only [portReady, hstep', hph', if_true]
    exact writeNext_eq hwrite
  have hex := exec_releaseSettleExpiry hp ht hh
  rw [hready] at hex
  refine ⟨_, hex, ?_, rfl, ?_, ?_, ?_⟩
  · rw [modCh_port, sendRequest_port, State.settled, port_modPort_self]
  · rw [modCh_link, sendRequest_link_self]
    rfl
  · exact sameBut_settled_step Changeover.writing
      (sameBut_sendRequest st.station (.write block offset words) .changeover (s.settled p))
  · rw [modCh_events, sendRequest_events]
    rfl

/-! ### Operations that have left the arbiter -/

/-- The record of a link an operation has left (R20). -/
def LinkRec.left (u : LinkUser) (l : LinkRec) : LinkRec :=
  { l with
    holder := if l.holder = some u then none else l.holder
    waiters := l.waiters.filter (fun v => decide (v ≠ u))
    inFlight := l.inFlight.map (fun t => if t.owner = some u then { t with owner := none } else t) }

theorem dropUser_eq (i : Station) (u : LinkUser) (s : State) : dropUser i u s = s.modLink i (LinkRec.left u) := rfl

/-- Leaving twice is leaving once. -/
theorem left_left (u : LinkUser) (l : LinkRec) : (l.left u).left u = l.left u := by
  have hholder : ((l.left u).left u).holder = (l.left u).holder := by
    simp only [LinkRec.left]
    split_ifs <;> simp_all
  have hwaiters : ((l.left u).left u).waiters = (l.left u).waiters := by
    simp only [LinkRec.left, List.filter_filter, Bool.and_self]
  have hflight : ((l.left u).left u).inFlight = (l.left u).inFlight := by
    simp only [LinkRec.left, Option.map_map]
    refine congrArg (fun f => l.inFlight.map f) (funext fun t => ?_)
    by_cases ht : t.owner = some u
    · simp [ht]
    · simp [ht]
  obtain ⟨h1, h2, h3⟩ := And.intro hholder (And.intro hwaiters hflight)
  calc (l.left u).left u
      = { l.left u with holder := ((l.left u).left u).holder, waiters := ((l.left u).left u).waiters,
                        inFlight := ((l.left u).left u).inFlight } := rfl
    _ = l.left u := by rw [h1, h2, h3]

theorem dropUser_dropUser (i : Station) (u : LinkUser) (s : State) : dropUser i u (dropUser i u s) = dropUser i u s := by
  rw [dropUser_eq, dropUser_eq, modLink_modLink]
  exact modLink_congr (left_left u _)

theorem dropUser_gaveUp {h : ReleaseHolder} (hn : ∀ p, s.portOf i = some p → (s.port p).holder ≠ some h) :
    (dropUser i u s).gaveUp i h u = dropUser i u s := by
  have hret : returnRelease i h (dropUser i u s) = dropUser i u s := returnRelease_none hn
  rw [State.gaveUp, hret, dropUser_dropUser]

/-- A relay or a read whose operation has left its link and holds no release leaves its slot alone (R82, R90). -/
theorem dropUser_closed (hn : ∀ p, s.portOf i = some p → (s.port p).holder ≠ some (.tool i)) :
    (dropUser i .tool s).closed i = (dropUser i .tool s).modStn i (fun r => { r with slot := none }) := by
  rw [State.closed, dropUser_gaveUp hn]

/-- A relay in trouble, whatever its station's state (R82, R84). -/
theorem relayReport_trouble {d : Trouble} (hd : relayTrouble op o = some d) (hne : o ≠ .verified) :
    relayReport i op o s = deliver i op (relayReply op o)
      (post (.station i) (.relayTrouble d op.port op.block) (if s.online i = true then requestSweep i s else s)) := by
  simp only [relayReport, hd, hne, false_and, if_false]

/-! ### The release limit expires -/

/-- The state in which the output of an expired release has been reasserted (R29). -/
def State.reasserted (s : State) (p : Port) : State := syncMonitor p (s.modPort p (fun r => r.reasserted))

theorem reasserted_port (s : State) (p : Port) : ((s.reasserted p).port p).driven = .asserted
    ∧ ((s.reasserted p).port p).holder = none ∧ ((s.reasserted p).port p).limitTimer = none
    ∧ ((s.reasserted p).port p).settleTimer = none := by
  simp [State.reasserted, syncMonitor, InhibitPort.reasserted]

theorem exec_releaseLimitExpiry {h : ReleaseHolder} (hp : s.power = .running) (ht : (s.port p).limitTimer = some ms)
    (hh : (s.port p).holder = some h) : exec (.releaseLimitExpiry p) s = .next (holderExpired h (s.reasserted p)) := by
  have hex : exec (.releaseLimitExpiry p) s = .next (limitExpiry p s) := rfl
  rw [hex, limitExpiry, whenRunning_running _ s hp, if_pos (by rw [ht]; rfl)]
  simp only [hh]
  rfl

/-- The answer to a tool's request as its port sends it (R83, R104). -/
def ToolTx.answer (tag : Byte) (r : ToolReply) : ToolTx :=
  { tag := tag, reply := r, remaining := frameTime r.body.length }

theorem answered_tx (tag : Byte) (r : ToolReply) (e : EngPort) : (e.answered tag r).tx = e.tx ++ [.answer tag r] := rfl

/-- A relay with nothing in flight ends UNCONFIRMED with its release expired (R89). -/
theorem limit_idle (hp : s.power = .running) (ht : (s.port p).limitTimer = some ms)
    (hh : (s.port p).holder = some (.tool i)) (hs : (s.stn i).slot = some op)
    (hf : (s.link i).inFlight = none) (hw : (s.link i).waiters = []) (hl : (s.link i).holder = some .tool)
    (h1 : (s.engp op.port).state = .waiting) (h2 : (s.engp op.port).attachment = op.attachment)
    (h3 : (s.engp op.port).awaited = some i) :
    ∃ t tx, exec (.releaseLimitExpiry p) s = .next t ∧ (t.port p).driven = .asserted ∧ (t.port p).holder = none
      ∧ (t.port p).limitTimer = none ∧ (t.port p).settleTimer = none ∧ (t.stn i).slot = none
      ∧ (t.link i).holder = none ∧ (t.engp op.port).tx = (s.engp op.port).tx ++ [tx] ∧ tx.tag = op.tag
      ∧ tx.reply = .unconfirmed op.block .expired op.acked
      ∧ t.events = postEvent s.guardTime (.station i)
          (.relayTrouble (.unconfirmed .expired op.acked) op.port op.block) s.events := by
  obtain ⟨y, hy⟩ : ∃ y, y = s.reasserted p := ⟨_, rfl⟩
  have hystn : ∀ j, y.stn j = s.stn j := fun j => by rw [hy]; rfl
  have hylink : ∀ j, y.link j = s.link j := fun j => by rw [hy]; rfl
  have hyeng : ∀ e, y.engp e = s.engp e := fun e => by rw [hy]; rfl
  have hyevents : y.events = s.events := by rw [hy]; rfl
  have hytime : y.guardTime = s.guardTime := by rw [hy]; rfl
  obtain ⟨hd, hho, hlt, hst⟩ := reasserted_port s p
  rw [← hy] at hd hho hlt hst
  obtain ⟨z, hz⟩ : ∃ z, z = y.closed i := ⟨_, rfl⟩
  obtain ⟨w, hwz⟩ : ∃ w, w = if z.online i = true then requestSweep i z else z := ⟨_, rfl⟩
  have hwframe : ∃ v, w = z.setSched v := by
    rw [hwz]
    split
    · exact ⟨_, requestSweep_frame i z⟩
    · exact ⟨z.sched, rfl⟩
  obtain ⟨v, hv⟩ := hwframe
  have hholder : holderExpired (.tool i) y = (post (.station i)
      (.relayTrouble (.unconfirmed .expired op.acked) op.port op.block) w).modEng op.port
        (EngPort.answered op.tag (.unconfirmed op.block .expired op.acked)) := by
    have hnone : y.toolInFlight i = false := by simp [State.toolInFlight, hylink, hf]
    have hne : RelayOutcome.unconfirmed Cause.expired ≠ .verified := nofun
    simp only [holderExpired, hystn, hs, hnone, Bool.false_eq_true, if_false]
    rw [endRelay_eq (by rw [hylink]; exact hw), ← hz, relayReport_trouble (d := .unconfirmed .expired op.acked) rfl hne,
      ← hwz]
    have heng : ∀ e, (post (.station i) (.relayTrouble (.unconfirmed .expired op.acked) op.port op.block) w).engp e
        = s.engp e := fun e => by rw [post_engp, hv, State.setSched_engp, hz, closed_engp, hyeng]
    exact deliver_waiting (by rw [heng]; exact h1) (by rw [heng]; exact h2) (by rw [heng]; exact h3)
  have hex := exec_releaseLimitExpiry hp ht hh
  rw [← hy, hholder] at hex
  have hans := engp_answered (s := post (.station i) (.relayTrouble (.unconfirmed .expired op.acked) op.port op.block) w)
    (op := op) (r := .unconfirmed op.block .expired op.acked)
  rw [post_engp, hv, State.setSched_engp, hz, closed_engp, hyeng] at hans
  have hzport : z.port p = y.port p := by
    rw [hz, closed_port]
    refine returnRelease_port_other (.inr ?_)
    rw [hho]
    exact nofun
  rw [hv] at hex
  obtain ⟨tx, htx⟩ : ∃ tx, tx = ToolTx.answer op.tag (.unconfirmed op.block .expired op.acked) := ⟨_, rfl⟩
  refine ⟨_, tx, hex, ?_, ?_, ?_, ?_, ?_, ?_, ?_, by rw [htx]; rfl, by rw [htx]; rfl, ?_⟩
  · rw [State.modEng_port, post_port, State.setSched_port, hzport, hd]
  · rw [State.modEng_port, post_port, State.setSched_port, hzport, hho]
  · rw [State.modEng_port, post_port, State.setSched_port, hzport, hlt]
  · rw [State.modEng_port, post_port, State.setSched_port, hzport, hst]
  · rw [State.modEng_stn, post_stn, State.setSched_stn, hz, closed_stn_self]
  · rw [State.modEng_link, post_link, State.setSched_link, hz, closed_link_idle (by rw [hylink]; exact hl)
      (by rw [hylink]; exact hw) (by rw [hylink]; exact hf)]
  · rw [hz, htx]
    exact congrArg EngPort.tx hans
  · rw [State.modEng_events, post_events, State.setSched_events, State.setSched_guardTime, hz, closed_events,
      closed_guardTime, hyevents, hytime]

/-- A relay with a transaction in flight waits for its result (R89). -/
theorem limit_inFlight {tr : Transaction} (hp : s.power = .running) (ht : (s.port p).limitTimer = some ms)
    (hh : (s.port p).holder = some (.tool i)) (hs : (s.stn i).slot = some op) (hf : (s.link i).inFlight = some tr)
    (ho : tr.owner = some .tool) :
    ∃ t, exec (.releaseLimitExpiry p) s = .next t ∧ (t.port p).driven = .asserted ∧ (t.port p).holder = none
      ∧ (t.port p).limitTimer = none ∧ (t.port p).settleTimer = none
      ∧ (t.stn i).slot = some { op with expired := true } ∧ t.links = s.links ∧ t.events = s.events := by
  obtain ⟨y, hy⟩ : ∃ y, y = s.reasserted p := ⟨_, rfl⟩
  have hystn : y.stn i = s.stn i := by rw [hy]; rfl
  have hylink : y.link i = s.link i := by rw [hy]; rfl
  obtain ⟨hd, hho, hlt, hst⟩ := reasserted_port s p
  rw [← hy] at hd hho hlt hst
  have hsome : y.toolInFlight i = true := by simp [State.toolInFlight, hylink, hf, ho]
  have hholder : holderExpired (.tool i) y = modSlot i (fun op => { op with expired := true }) y := by
    simp only [holderExpired, hystn, hs, hsome, if_true]
  have hex := exec_releaseLimitExpiry hp ht hh
  rw [← hy, hholder] at hex
  refine ⟨_, hex, ?_, ?_, ?_, ?_, ?_, ?_, ?_⟩
  · rw [modSlot_port, hd]
  · rw [modSlot_port, hho]
  · rw [modSlot_port, hlt]
  · rw [modSlot_port, hst]
  · rw [modSlot_stn_self, hystn, hs]
    rfl
  · rw [hy]
    rfl
  · rw [hy]
    rfl

/-! ### The sensed level -/

/-- A change of the level sensed at a terminal (R30). -/
theorem exec_inhibitSenseChange {level : Bool} {m : Monitor} (hp : s.power = .running)
    (hm : monitorNext { s.port p with sensed := level } (s.comparing p) = m) :
    exec (.inhibitSenseChange p level) s = .next (s.modPort p (fun r => { r with sensed := level, monitor := m })) := by
  have hex : exec (.inhibitSenseChange p level) s = .next (senseChange p level s) := rfl
  have hcomp : (s.modPort p (fun r => { r with sensed := level })).comparing p = s.comparing p := by
    simp only [State.comparing, port_modPort_self, State.modPort_portMap]
    rfl
  rw [hex, senseChange, whenRunning_running _ s hp, syncMonitor, hcomp, modPort_modPort]
  refine congrArg _ (modPort_congr ?_)
  rw [← hm]

theorem comparing_iff : s.comparing p = true ↔ ((s.port p).jumper = .high ∨ (s.port p).jumper = .low)
    ∧ ∃ i : Station, s.portMap[p] = some i ∧ ((s.stn i).state = .online ∨ (s.stn i).state = .quarantined) := by
  have hj : jumperMonitored (s.port p).jumper = true ↔ (s.port p).jumper = .high ∨ (s.port p).jumper = .low := by
    cases (s.port p).jumper <;> simp [jumperMonitored]
  rw [State.comparing, Bool.and_eq_true, hj]
  refine and_congr_right fun _ => ?_
  cases hm : s.portMap[p] with
  | none => simp
  | some i => simp [State.up]

/-- The level a driven level calls for (R24). -/
theorem calledFor_eq (r : InhibitPort) (h : r.jumper = .high ∨ r.jumper = .low) : r.calledFor = match r.jumper, r.driven with
      | .low, .asserted => false
      | .low, .released => true
      | _, .asserted => true
      | _, .released => false := by
  unfold InhibitPort.calledFor
  rcases h with h | h <;> rw [h] <;> cases r.driven <;> rfl

/-- The monitor after a change of the sensed level (R24, R30). -/
theorem sense_monitor {level : Bool} (hp : s.power = .running) :
    let r := s.port p
    let comparing : Prop := (r.jumper = .high ∨ r.jumper = .low) ∧ ∃ i : Station, s.portMap[p] = some i
      ∧ ((s.stn i).state = .online ∨ (s.stn i).state = .quarantined)
    let called : Bool := match r.jumper, r.driven with
      | .low, .asserted => false
      | .low, .released => true
      | _, .asserted => true
      | _, .released => false
    let becomes (m : Monitor) : Prop :=
      exec (.inhibitSenseChange p level) s = .next (s.modPort p (fun r => { r with sensed := level, monitor := m }))
    (r.monitor = .fault → becomes .fault)
    ∧ (r.monitor ≠ .fault → ¬ comparing → becomes .idle)
    ∧ (r.monitor ≠ .fault → comparing → level = called → becomes .agree)
    ∧ (r.monitor = .idle ∨ r.monitor = .agree → comparing → level ≠ called → becomes (.disagree 0))
    ∧ (∀ ms, r.monitor = .disagree ms → comparing → level ≠ called → becomes (.disagree ms)) := by
  intro r comparing called becomes
  have hcomp : s.comparing p = true ↔ comparing := comparing_iff
  obtain ⟨r', hr'⟩ : ∃ r' : InhibitPort, r' = { s.port p with sensed := level } := ⟨_, rfl⟩
  have hmon : r'.monitor = r.monitor := by rw [hr']
  have hsensed : r'.sensed = level := by rw [hr']
  have hcalled : comparing → r'.calledFor = called := fun hc => by
    rw [hr']
    exact calledFor_eq { s.port p with sensed := level } hc.1
  have hbecomes : ∀ m, monitorNext r' (s.comparing p) = m → becomes m := fun m hm => by
    rw [hr'] at hm
    exact exec_inhibitSenseChange hp hm
  refine ⟨fun hf => hbecomes _ ?_, fun hf hc => hbecomes _ ?_, fun hf hc hl => hbecomes _ ?_, fun hm hc hl => hbecomes _ ?_,
    fun ms hm hc hl => hbecomes _ ?_⟩
  · simp [monitorNext, hmon, hf]
  · have hoff : s.comparing p = false := Bool.eq_false_iff.2 fun h => hc (hcomp.1 h)
    rw [← hmon] at hf
    cases hr : r'.monitor with
    | fault => exact absurd hr hf
    | idle => simp [monitorNext, hr, hoff]
    | agree => simp [monitorNext, hr, hoff]
    | disagree ms => simp [monitorNext, hr, hoff]
  · have hon := hcomp.2 hc
    have heq : r'.sensed = r'.calledFor := by rw [hcalled hc, hsensed, hl]
    rw [← hmon] at hf
    cases hr : r'.monitor with
    | fault => exact absurd hr hf
    | idle => simp [monitorNext, hr, hon, heq]
    | agree => simp [monitorNext, hr, hon, heq]
    | disagree ms => simp [monitorNext, hr, hon, heq]
  · have hon := hcomp.2 hc
    have hne : r'.sensed ≠ r'.calledFor := by rwa [hcalled hc, hsensed]
    rw [← hmon] at hm
    rcases hm with hm | hm <;> simp [monitorNext, hm, hon, hne]
  · have hon := hcomp.2 hc
    have hne : r'.sensed ≠ r'.calledFor := by rwa [hcalled hc, hsensed]
    rw [← hmon] at hm
    simp [monitorNext, hm, hon, hne]

/-! ### A port in FAULT -/

/-- The state in which the fault of a port has taken its ONLINE station to QUARANTINED, with the operations on its link
not yet ended (R21, R30). -/
def State.faulted (s : State) (p : Port) (i : Station) : State :=
  post (.station i) (.quarantined .inhibit) (dropSweep i (setStState i .quarantined
    ((s.modPort p (fun r => { r.reasserted with monitor := .fault })).modStn i (fun r => { r with reason := some .inhibit }))))

theorem faulted_frame (s : State) (p : Port) (i : Station) :
    { s.faulted p i with stations := s.stations, ports := s.ports, sched := s.sched, events := s.events } = s := by
  obtain ⟨x, hx⟩ : ∃ x, x = (s.modPort p (fun r => { r.reasserted with monitor := .fault })).modStn i
      (fun r => { r with reason := some .inhibit }) := ⟨_, rfl⟩
  obtain ⟨w, hw⟩ : ∃ w, w = setStState i .quarantined x := ⟨_, rfl⟩
  have hfaulted : s.faulted p i = post (.station i) (.quarantined .inhibit) (dropSweep i w) := by
    rw [State.faulted, hw, hx]
  have hframe : { w with stations := s.stations, ports := s.ports, sched := s.sched, events := s.events } = s := by
    rw [hw, setStState_frame]
    generalize (setStState i .quarantined x).ports = v
    rw [hx]
    rfl
  rw [hfaulted]
  exact hframe

theorem faulted_stn_self : (s.faulted p i).stn i = { s.stn i with state := .quarantined, reason := some .inhibit } := by
  rw [State.faulted, dropSweep_eq, post_stn, State.setSched_stn, setStState_stn_self, stn_modStn_self, State.modPort_stn]

theorem faulted_stn_ne (h : j ≠ i) : (s.faulted p i).stn j = s.stn j := by
  rw [State.faulted, dropSweep_eq, post_stn, State.setSched_stn, setStState_stn_ne h, stn_modStn_ne _ _ (Ne.symm h),
    State.modPort_stn]

theorem faulted_port (hp : s.portOf i = some p) : (s.faulted p i).port p = { s.port p with
      monitor := .fault, driven := .asserted, holder := none, limitTimer := none, settleTimer := none } := by
  have hp' : ((s.modPort p (fun r => { r.reasserted with monitor := .fault })).modStn i
      (fun r => { r with reason := some .inhibit })).portOf i = some p := hp
  rw [State.faulted, dropSweep_eq, post_port, State.setSched_port, setStState_port hp', State.modStn_port,
    port_modPort_self]
  rfl

@[simp] theorem faulted_links : (s.faulted p i).links = s.links := (congrArg State.links (faulted_frame s p i) :)
@[simp] theorem faulted_link (j : Station) : (s.faulted p i).link j = s.link j :=
  congrArg (fun v : Vector LinkRec 8 => v[j]) faulted_links
@[simp] theorem faulted_eng : (s.faulted p i).eng = s.eng := (congrArg State.eng (faulted_frame s p i) :)
@[simp] theorem faulted_engp (e : EngId) : (s.faulted p i).engp e = s.engp e := by
  simp only [State.engp, faulted_eng]
@[simp] theorem faulted_portMap : (s.faulted p i).portMap = s.portMap := (congrArg State.portMap (faulted_frame s p i) :)
@[simp] theorem faulted_portOf (j : Station) : (s.faulted p i).portOf j = s.portOf j := by
  rw [State.portOf, faulted_portMap]
  rfl
@[simp] theorem faulted_changeover : (s.faulted p i).changeover = s.changeover :=
  (congrArg State.changeover (faulted_frame s p i) :)
@[simp] theorem faulted_audit : (s.faulted p i).audit = s.audit := (congrArg State.audit (faulted_frame s p i) :)
@[simp] theorem faulted_params : (s.faulted p i).params = s.params := (congrArg State.params (faulted_frame s p i) :)
@[simp] theorem faulted_guardTime : (s.faulted p i).guardTime = s.guardTime :=
  (congrArg State.guardTime (faulted_frame s p i) :)

theorem faulted_sched : (s.faulted p i).sched
    = { s.sched with sweeps := s.sched.sweeps.filter (fun q => decide (q.station ≠ i)) } := by
  rw [State.faulted, dropSweep_eq, post_sched, setStState_sched]
  rfl

theorem faulted_events : (s.faulted p i).events
    = postEvent s.guardTime (.station i) (.quarantined .inhibit) s.events := by
  rw [State.faulted, dropSweep_eq, post_events, State.setSched_events, State.setSched_guardTime, setStState_events,
    setStState_guardTime]
  rfl

/-- A station that leaves ONLINE waits for no sweep (R123). -/
theorem faulted_sweeps : ∀ x ∈ (s.faulted p i).sched.sweeps, x.station ≠ i := by
  rw [faulted_sched]
  intro x hx
  exact of_decide_eq_true (List.mem_filter.1 hx).2

/-- The output of a port in FAULT is held by nobody (R30). -/
theorem faulted_unheld (hp : s.portOf i = some p) :
    ∀ p', (s.faulted p i).portOf i = some p' → ((s.faulted p i).port p').holder = none := by
  intro p' hp'
  rw [faulted_portOf, hp] at hp'
  cases hp'
  rw [faulted_port hp]

theorem exec_inhibitFault (hp : s.power = .running) (hm : (s.port p).monitor = .disagree ms) :
    exec (.inhibitFault p) s = .next (faultPort p s) := by
  have hex : exec (.inhibitFault p) s = .next (disagreeExpiry p s) := rfl
  rw [hex, disagreeExpiry, whenRunning_running _ s hp]
  simp only [hm]

/-- The fault of the port of an ONLINE station (R21, R30). -/
theorem exec_inhibitFault_online {us : List LinkUser} (hp : s.power = .running) (hmap : s.portMap[p] = some i)
    (hport : s.portOf i = some p) (hon : (s.stn i).state = .online) (hm : (s.port p).monitor = .disagree ms)
    (hus : (s.link i).users.filter removedByQuarantine = us) :
    exec (.inhibitFault p) s = .next (grant i (controllerLost i .quarantine
      (us.foldl (fun s u => endByQuarantine i u s) (us.foldl (fun s u => dropUser i u s) (s.faulted p i))))) := by
  obtain ⟨x, hx⟩ : ∃ x, x = s.modPort p (fun r => { r.reasserted with monitor := .fault }) := ⟨_, rfl⟩
  have hxmap : x.portMap[p] = some i := by rw [hx]; exact hmap
  have hxon : (x.stn i).state = .online := by rw [hx]; exact hon
  have hxlink : x.link i = s.link i := by rw [hx]; rfl
  have hfault : faultPort p s = quarantineOnline i x := by
    unfold faultPort
    simp only [← hx, hxmap, hxon]
  obtain ⟨w, hw⟩ : ∃ w, w = setStState i .quarantined (x.modStn i (fun r => { r with reason := some .inhibit })) := ⟨_, rfl⟩
  have hfaulted : s.faulted p i = post (.station i) (.quarantined .inhibit) (dropSweep i w) := by
    rw [State.faulted, hw, hx]
  have hdrop : dropRelease i w = w := by
    refine dropRelease_none ?_
    have hun := faulted_unheld hport
    rw [hfaulted] at hun
    exact hun
  rw [exec_inhibitFault hp hm, hfault, hfaulted, quarantineOnline]
  simp only [hxlink, hus, ← hw, hdrop]

/-- The fault of the port of a station QUARANTINED for its identity (R21). -/
theorem fault_identity (hp : s.power = .running) (hmap : s.portMap[p] = some i)
    (hm : (s.port p).monitor = .disagree ms) (hq : (s.stn i).state = .quarantined)
    (hr : (s.stn i).reason = some .identity) :
    exec (.inhibitFault p) s = .next (post (.station i) (.quarantined .inhibit)
      ((s.modStn i (fun r => { r with reason := some .inhibit })).modPort p (fun r =>
        { r with monitor := .fault, driven := .asserted, holder := none, limitTimer := none, settleTimer := none }))) := by
  obtain ⟨x, hx⟩ : ∃ x, x = s.modPort p (fun r => { r.reasserted with monitor := .fault }) := ⟨_, rfl⟩
  have hxmap : x.portMap[p] = some i := by rw [hx]; exact hmap
  have hxq : (x.stn i).state = .quarantined := by rw [hx]; exact hq
  have hxr : (x.stn i).reason = some .identity := by rw [hx]; exact hr
  have hfault : faultPort p s = post (.station i) (.quarantined .inhibit)
      (x.modStn i (fun r => { r with reason := some .inhibit })) := by
    unfold faultPort
    simp only [← hx, hxmap, hxq, hxr]
    rfl
  rw [exec_inhibitFault hp hm, hfault, hx]
  rfl

/-- The fault of a port on whose station's link nothing is at work (R21, R30). -/
theorem fault_unused (hp : s.power = .running) (hmap : s.portMap[p] = some i) (hport : s.portOf i = some p)
    (hon : (s.stn i).state = .online) (hm : (s.port p).monitor = .disagree ms) (hh : (s.link i).holder = none)
    (hw : (s.link i).waiters = []) (hch : i ∉ s.changeover.stations) :
    ∃ t, exec (.inhibitFault p) s = .next t ∧ (t.port p).monitor = .fault ∧ (t.port p).driven = .asserted
      ∧ (t.port p).holder = none ∧ t.stn i = { s.stn i with state := .quarantined, reason := some .inhibit }
      ∧ t.events = postEvent s.guardTime (.station i) (.quarantined .inhibit) s.events
      ∧ (∀ q ∈ t.sched.sweeps, q.station ≠ i) := by
  have hus : (s.link i).users.filter removedByQuarantine = [] := by simp [LinkRec.users, hh, hw]
  have hex := exec_inhibitFault_online hp hmap hport hon hm hus
  rw [List.foldl_nil, List.foldl_nil, controllerLost_other (by rw [faulted_changeover]; exact hch),
    grant_no_waiters (by rw [faulted_link]; exact hw)] at hex
  refine ⟨_, hex, ?_, ?_, ?_, faulted_stn_self, faulted_events, faulted_sweeps⟩ <;> rw [faulted_port hport]

/-! ### The operation on the link of a station whose port is in FAULT -/

/-- What a check records in the sweep queue keeps its stations (R130). -/
theorem recordTaken_stations (c : Check) {qs : List Sweep} (h : ∀ x ∈ qs, x.station ≠ i) :
    ∀ x ∈ recordTaken c qs, x.station ≠ i := by
  cases qs with
  | nil => exact h
  | cons q qs =>
    obtain ⟨hq, hqs⟩ := List.forall_mem_cons.1 h
    rw [recordTaken]
    split
    · exact List.forall_mem_cons.2 ⟨(hq : q.station ≠ i), hqs⟩
    · exact h

/-- The operation holds the link, or waits for it behind a presence poll or a transaction nobody takes (R19). -/
def AtLink (l : LinkRec) (u : LinkUser) : Prop :=
  (l.holder = some u ∧ l.waiters = [])
  ∨ (l.waiters = [u] ∧ l.inFlight ≠ none ∧ (l.holder = some .presence ∨ l.holder = none)
    ∧ ∀ x, l.inFlight = some x → x.owner ≠ some u)

theorem AtLink.users {l : LinkRec} (h : AtLink l u) (hu : removedByQuarantine u = true) :
    l.users.filter removedByQuarantine = [u] := by
  have hpresence : removedByQuarantine .presence = false := rfl
  rcases h with ⟨hh, hw⟩ | ⟨hw, -, hh | hh, -⟩ <;> simp [LinkRec.users, hh, hw, hu, hpresence]

theorem AtLink.waiters {l : LinkRec} (h : AtLink l u) : (l.left u).waiters = [] := by
  rcases h with ⟨-, hw⟩ | ⟨hw, -, -, -⟩ <;> simp [LinkRec.left, hw]

/-- The station is QUARANTINED and the operation has left its link (R20, R21, R30). -/
def FaultEnds (s : State) (p : Port) (i : Station) (u : LinkUser) (t : State) : Prop :=
  exec (.inhibitFault p) s = .next t
  ∧ t.port p = { s.port p with monitor := .fault, driven := .asserted, holder := none, limitTimer := none,
                               settleTimer := none }
  ∧ (t.stn i).state = .quarantined ∧ (t.stn i).reason = some .inhibit
  ∧ t.link i = { s.link i with
      holder := if (s.link i).holder = some u then none else (s.link i).holder
      waiters := []
      inFlight := (s.link i).inFlight.map (fun x => if x.owner = some u then { x with owner := none } else x) }
  ∧ (∀ x ∈ t.sched.sweeps, x.station ≠ i) ∧ ∀ j : Station, j ≠ i → t.link j = s.link j

/-- The state in which a station's fault has taken its tool operation off the link and out of its slot (R90). -/
def State.toolLeft (s : State) (p : Port) (i : Station) : State :=
  (dropUser i .tool (s.faulted p i)).modStn i (fun r => { r with slot := none })

theorem toolLeft_stn_self : (s.toolLeft p i).stn i
    = { s.stn i with state := .quarantined, reason := some .inhibit, slot := none } := by
  rw [State.toolLeft, stn_modStn_self, dropUser_eq, State.modLink_stn, faulted_stn_self]

theorem toolLeft_link (j : Station) : (s.toolLeft p i).link j = (dropUser i .tool (s.faulted p i)).link j := rfl
theorem toolLeft_port : (s.toolLeft p i).port p = (s.faulted p i).port p := rfl
theorem toolLeft_sched : (s.toolLeft p i).sched = (s.faulted p i).sched := rfl
theorem toolLeft_engp (e : EngId) : (s.toolLeft p i).engp e = s.engp e := (faulted_engp e :)
theorem toolLeft_changeover : (s.toolLeft p i).changeover = s.changeover := (faulted_changeover :)
theorem toolLeft_guardTime : (s.toolLeft p i).guardTime = s.guardTime := (faulted_guardTime :)
theorem toolLeft_events : (s.toolLeft p i).events
    = postEvent s.guardTime (.station i) (.quarantined .inhibit) s.events := (faulted_events :)

theorem toolLeft_eq (hport : s.portOf i = some p) : (dropUser i .tool (s.faulted p i)).closed i = s.toolLeft p i :=
  dropUser_closed fun p' hp' => (faulted_unheld hport p' hp').trans_ne (Option.some_ne_none _).symm

theorem faultLeft_slot : ((dropUser i .tool (s.faulted p i)).stn i).slot = (s.stn i).slot := by
  rw [dropUser_eq, State.modLink_stn, faulted_stn_self]

/-- A relay that has sent a WRITE is in trouble with its station's quarantine (R85, R90). -/
theorem endToolBy_written (hport : s.portOf i = some p)
    (hw : ((dropUser i .tool (s.faulted p i)).link i).waiters = []) (hs : (s.stn i).slot = some op)
    (hw1 : op.write = true) (hw2 : op.writeSent = true) :
    endToolBy i .quarantine (dropUser i .tool (s.faulted p i)) = deliver i op (.unconfirmed op.block .quarantine op.acked)
      (post (.station i) (.relayTrouble (.unconfirmed .quarantine op.acked) op.port op.block) (s.toolLeft p i)) := by
  have hne : RelayOutcome.unconfirmed Cause.quarantine ≠ .verified := nofun
  have hoff : (s.toolLeft p i).online i = false := by rw [State.online, toolLeft_stn_self]; rfl
  simp only [endToolBy, faultLeft_slot, hs, hw1, hw2, if_true]
  rw [endRelay_eq hw, toolLeft_eq hport, relayReport_trouble (d := .unconfirmed .quarantine op.acked) rfl hne, hoff,
    if_neg Bool.false_ne_true]
  rfl

/-- Another tool operation fails with its station's quarantine (R90). -/
theorem endToolBy_unwritten (hport : s.portOf i = some p)
    (hw : ((dropUser i .tool (s.faulted p i)).link i).waiters = []) (hs : (s.stn i).slot = some op)
    (hwr : ¬ (op.write = true ∧ op.writeSent = true)) :
    endToolBy i .quarantine (dropUser i .tool (s.faulted p i)) = deliver i op (.failed op.block .quarantine)
      (s.toolLeft p i) := by
  cases hw1 : op.write with
  | false =>
    simp only [endToolBy, faultLeft_slot, hs, hw1, Bool.false_eq_true, if_false]
    rw [endToolRead_eq hw, toolLeft_eq hport]
  | true =>
    have hw2 : op.writeSent = false := Bool.eq_false_iff.2 fun h => hwr ⟨hw1, h⟩
    simp only [endToolBy, faultLeft_slot, hs, hw1, hw2, Bool.false_eq_true, if_false, if_true]
    rw [endRelay_eq hw, toolLeft_eq hport, relayReport_failed]

section
variable (hp : s.power = .running) (hmap : s.portMap[p] = some i) (hport : s.portOf i = some p)
  (hon : (s.stn i).state = .online) (hm : (s.port p).monitor = .disagree ms) (hat : AtLink (s.link i) u)
include hp hmap hport hon hm hat

/-- The state in which the operation has ended, by what its end leaves of the fault's state. -/
theorem faultEnds_of (hu : removedByQuarantine u = true)
    (ht : controllerLost i .quarantine (endByQuarantine i u (dropUser i u (s.faulted p i))) = t)
    (htport : t.port p = (s.faulted p i).port p) (htstate : (t.stn i).state = .quarantined)
    (htreason : (t.stn i).reason = some .inhibit) (htlink : ∀ j, t.link j = (dropUser i u (s.faulted p i)).link j)
    (htsweeps : ∀ x ∈ t.sched.sweeps, x.station ≠ i) : FaultEnds s p i u t := by
  have hlink : t.link i = (s.link i).left u := by rw [htlink, dropUser_eq, link_modLink_self, faulted_link]
  have hwaiters : ((s.link i).left u).waiters = [] := hat.waiters
  have hex := exec_inhibitFault_online hp hmap hport hon hm (hat.users hu)
  simp only [List.foldl_cons, List.foldl_nil, ht] at hex
  rw [grant_no_waiters (by rw [hlink]; exact hwaiters)] at hex
  refine ⟨hex, htport.trans (faulted_port hport), htstate, htreason, ?_, htsweeps, fun j hj => ?_⟩
  · rw [hlink, ← hwaiters]
    rfl
  · rw [htlink, dropUser_eq, link_modLink_ne _ _ (Ne.symm hj), faulted_link]

/-- The answered port of a tool operation ended by its station's quarantine, in a state that differs from the one its
end leaves in events alone. -/
theorem fault_toolEnded {r : ToolReply} {v : State} (hu : u = .tool) (hch : i ∉ s.changeover.stations)
    (hv : v = { s.toolLeft p i with events := v.events })
    (hend : endToolBy i .quarantine (dropUser i .tool (s.faulted p i)) = v.modEng op.port (EngPort.answered op.tag r)) :
    ∃ t tx, FaultEnds s p i u t ∧ (t.stn i).slot = none ∧ (t.engp op.port).state = .ready
      ∧ (t.engp op.port).tx = (s.engp op.port).tx ++ [tx] ∧ tx.tag = op.tag ∧ tx.reply = r ∧ t.events = v.events := by
  subst hu
  obtain ⟨ev, hev⟩ : ∃ ev, ev = v.events := ⟨_, rfl⟩
  obtain ⟨z, hz⟩ : ∃ z, z = s.toolLeft p i := ⟨_, rfl⟩
  have hzstn := toolLeft_stn_self (s := s) (p := p) (i := i)
  have hzport := toolLeft_port (s := s) (p := p) (i := i)
  have hzeng := toolLeft_engp (s := s) (p := p) (i := i)
  have hzlink := toolLeft_link (s := s) (p := p) (i := i)
  have hzch := toolLeft_changeover (s := s) (p := p) (i := i)
  have hzsched := toolLeft_sched (s := s) (p := p) (i := i)
  rw [← hev, ← hz] at hv
  rw [← hz] at hzstn hzport hzch hzsched
  simp only [← hz] at hzeng hzlink
  rw [← hev]
  obtain ⟨t, ht⟩ : ∃ t, t = v.modEng op.port (EngPort.answered op.tag r) := ⟨_, rfl⟩
  have hteng : t.engp op.port = (s.engp op.port).answered op.tag r := by
    rw [ht, engp_modEng_self, ← hzeng, hv]
    rfl
  have htstn : t.stn i = z.stn i := by rw [ht, hv]; rfl
  refine ⟨t, .answer op.tag r, faultEnds_of hp hmap hport hon hm hat rfl ?_ ?_ ?_ ?_ (fun j => ?_) ?_, ?_, ?_, ?_, rfl, rfl,
    ?_⟩
  · have hby : endByQuarantine i .tool (dropUser i .tool (s.faulted p i)) = t := hend.trans ht.symm
    have htch : t.changeover = z.changeover := by rw [ht, hv]; rfl
    rw [hby]
    refine controllerLost_other ?_
    rw [htch, hzch]
    exact hch
  · rw [← hzport, ht, hv]
    rfl
  · rw [htstn, hzstn]
  · rw [htstn, hzstn]
  · rw [← hzlink, ht, hv]
    rfl
  · have htsched : t.sched = z.sched := by rw [ht, hv]; rfl
    rw [htsched, hzsched]
    exact faulted_sweeps
  · rw [htstn, hzstn]
  · rw [hteng]
    rfl
  · rw [hteng, answered_tx]
  · rw [ht, hv]
    rfl

/-- A tool operation ends with its station's quarantine: UNCONFIRMED where it has sent a WRITE, and else FAILED (R90). -/
theorem fault_tool (hu : u = .tool) (hch : i ∉ s.changeover.stations) (hs : (s.stn i).slot = some op)
    (h1 : (s.engp op.port).state = .waiting) (h2 : (s.engp op.port).attachment = op.attachment)
    (h3 : (s.engp op.port).awaited = some i) :
    let posted := postEvent s.guardTime (.station i) (.quarantined .inhibit) s.events
    let written : Prop := op.write = true ∧ op.writeSent = true
    ∃ t tx, FaultEnds s p i u t ∧ (t.stn i).slot = none ∧ (t.engp op.port).state = .ready
      ∧ (t.engp op.port).tx = (s.engp op.port).tx ++ [tx] ∧ tx.tag = op.tag
      ∧ (written → tx.reply = .unconfirmed op.block .quarantine op.acked ∧ t.events = postEvent s.guardTime
          (.station i) (.relayTrouble (.unconfirmed .quarantine op.acked) op.port op.block) posted)
      ∧ (¬ written → tx.reply = .failed op.block .quarantine ∧ t.events = posted) := by
  subst hu
  intro posted written
  have hdeliver : ∀ (r : ToolReply) (v : State), v.eng = (s.toolLeft p i).eng →
      deliver i op r v = v.modEng op.port (EngPort.answered op.tag r) := fun r v hv => by
    have heng : v.engp op.port = s.engp op.port :=
      (congrArg (fun e : Vector EngPort 4 => e[op.port]) hv :).trans (toolLeft_engp op.port)
    exact deliver_waiting (by rw [heng]; exact h1) (by rw [heng]; exact h2) (by rw [heng]; exact h3)
  have hwaiters : ((dropUser i .tool (s.faulted p i)).link i).waiters = [] := by
    rw [dropUser_eq, link_modLink_self, faulted_link]
    exact hat.waiters
  by_cases hwr : written
  · obtain ⟨t, tx, hends, hslot, hready, htx, htag, hreply, hev⟩ := fault_toolEnded hp hmap hport hon hm hat rfl hch rfl
      ((endToolBy_written hport hwaiters hs hwr.1 hwr.2).trans (hdeliver _ _ rfl))
    rw [post_events, toolLeft_events, toolLeft_guardTime] at hev
    exact ⟨t, tx, hends, hslot, hready, htx, htag, fun _ => ⟨hreply, hev⟩, fun h => absurd hwr h⟩
  · obtain ⟨t, tx, hends, hslot, hready, htx, htag, hreply, hev⟩ := fault_toolEnded hp hmap hport hon hm hat rfl hch rfl
      ((endToolBy_unwritten hport hwaiters hs hwr).trans (hdeliver _ _ rfl))
    rw [toolLeft_events] at hev
    exact ⟨t, tx, hends, hslot, hready, htx, htag, fun h => absurd h hwr, fun _ => ⟨hreply, hev⟩⟩

/-- A check ends without a result with its station's quarantine (R129). -/
theorem fault_check (hu : u = .audit) (hch : i ∉ s.changeover.stations) (hc : s.sched.check = some c)
    (hci : c.station = i) (hpace : s.sched.paceTimer ≠ none) :
    ∃ t, FaultEnds s p i u t ∧ t.sched.check = none ∧ t.audit = s.audit
      ∧ t.events = postEvent s.guardTime (.station i) (.quarantined .inhibit) s.events := by
  subst hu hci
  obtain ⟨y, hy⟩ : ∃ y, y = dropUser c.station .audit (s.faulted p c.station) := ⟨_, rfl⟩
  have hylink : y.link c.station = (s.link c.station).left .audit := by
    rw [hy, dropUser_eq, link_modLink_self, faulted_link]
  have hysched : y.sched = (s.faulted p c.station).sched := by rw [hy]; rfl
  have hycheck : y.sched.check = some c := by rw [hysched, faulted_sched]; exact hc
  have hyaudit : y.audit = s.audit := by rw [hy]; exact faulted_audit
  have hyevents : y.events = postEvent s.guardTime (.station c.station) (.quarantined .inhibit) s.events := by
    rw [hy]
    exact faulted_events
  have hych : y.changeover = s.changeover := by rw [hy]; exact faulted_changeover
  have hleave : leave c.station .audit y = y := by
    have hdrop : dropUser c.station .audit y = y := by rw [hy, dropUser_dropUser]
    rw [leave, hdrop]
    exact grant_no_waiters (by rw [hylink]; exact hat.waiters)
  have htaken : CheckResult.nothing.taken c = .nothing := by
    unfold CheckResult.taken
    split <;> rfl
  have hend : endCheck .nothing y = y.checked c .nothing := by
    rw [endCheck_eq hycheck hleave (by rw [hysched, faulted_sched]; exact hpace), htaken]
  obtain ⟨t, ht⟩ : ∃ t, t = y.checked c .nothing := ⟨_, rfl⟩
  have htstn : t.stn c.station = (y.stn c.station).checked .nothing := by
    rw [ht]
    exact stn_modStn_self y c.station (StationRec.checked .nothing)
  have hystn : y.stn c.station = { s.stn c.station with state := .quarantined, reason := some .inhibit } := by
    rw [hy, dropUser_eq, State.modLink_stn, faulted_stn_self]
  have hyport : y.port p = (s.faulted p c.station).port p := by rw [hy]; rfl
  refine ⟨t, faultEnds_of hp hmap hport hon hm hat rfl ?_ ?_ ?_ ?_ ?_ ?_, ?_, ?_, ?_⟩
  · have hby : endByQuarantine c.station .audit y = t := hend.trans ht.symm
    rw [← hy, hby]
    refine controllerLost_other ?_
    have htch : t.changeover = s.changeover := by
      rw [← hych, ht]
      rfl
    rw [htch]
    exact hch
  · rw [← hyport, ht]
    rfl
  · rw [htstn, hystn]
    rfl
  · rw [htstn, hystn]
    rfl
  · intro j
    rw [← hy, ht]
    rfl
  · have htsweeps : t.sched.sweeps = recordTaken c y.sched.sweeps := by rw [ht]; rfl
    rw [htsweeps, hysched]
    exact recordTaken_stations c faulted_sweeps
  · rw [ht]
    rfl
  · rw [ht, State.checked]
    show y.audit.modify c.entry (fun e => e.after .nothing y.guardTime) = s.audit
    rw [hyaudit]
    exact List.modify_id c.entry s.audit
  · rw [← hyevents, ht, State.checked]
    refine if_neg ?_
    cases y.audit[c.entry]? <;> simp [drifts]

/-- A changeover or revert at work at the station fails with its quarantine (R147). -/
theorem fault_changeover {kind : ChKind} (hu : u = .changeover) (hch : i ∈ s.changeover.stations)
    (hwork : s.changeover.state = .applying ∨ s.changeover.state = .verifying) (hstep : s.changeover.step = some st)
    (hst : st.station = i) (hk : s.changeover.kind = some kind) (hne : kind ≠ .restore)
    (hstop : s.changeover.stop = none) :
    let posted := postEvent s.guardTime (.station i) (.quarantined .inhibit) s.events
    let f := failureOf st s.changeover.done .quarantine none
    ∃ t, FaultEnds s p i u t ∧ t.changeover.state = .failed ∧ t.changeover.failure = some f
      ∧ (∀ j : Station, (t.stn j).format = if j ∈ s.changeover.stations then .mixed else (s.stn j).format)
      ∧ t.params = s.params ∧ t.audit = s.audit
      ∧ t.events = postEvent s.guardTime .controller
          (.operationDone kind .failed (s.changeover.target.getD 0) (some f)) posted := by
  subst hu hst
  intro posted f
  obtain ⟨y, hy⟩ : ∃ y, y = dropUser st.station .changeover (s.faulted p st.station) := ⟨_, rfl⟩
  have hych : y.changeover = s.changeover := by rw [hy]; exact faulted_changeover
  have hyport : y.port p = (s.faulted p st.station).port p := by rw [hy]; rfl
  have hylink : ∀ j, y.link j = (dropUser st.station .changeover (s.faulted p st.station)).link j := fun j => by rw [hy]
  have hyself : y.link st.station = (s.link st.station).left .changeover := by
    rw [hy, dropUser_eq, link_modLink_self, faulted_link]
  have hystn : ∀ j, y.stn j = (s.faulted p st.station).stn j := fun j => by rw [hy]; rfl
  have hysched : y.sched = (s.faulted p st.station).sched := by rw [hy]; rfl
  have hyparams : y.params = s.params := by rw [hy]; exact faulted_params
  have hyaudit : y.audit = s.audit := by rw [hy]; exact faulted_audit
  have hytime : y.guardTime = s.guardTime := by rw [hy]; exact faulted_guardTime
  have hyevents : y.events = posted := by rw [hy]; exact faulted_events
  have hgave : y.gaveUp st.station .changeover .changeover = y := by
    rw [hy]
    exact dropUser_gaveUp fun p' hp' => (faulted_unheld hport p' hp').trans_ne (Option.some_ne_none _).symm
  have hlost : controllerLost st.station .quarantine y = failOperation f y := by
    have hhere : failureHere .quarantine none y = f := by
      rw [failureHere_eq _ _ (by rw [hych]; exact hstep), hych]
    rcases hwork with hw | hw <;>
      simp only [controllerLost, hych, hch, hw, hstep, hstop, hhere, decide_true, if_true, Option.getD_none]
  have hfail : failOperation f y = post .controller (.operationDone kind .failed (s.changeover.target.getD 0) (some f))
      (modCh (Changeover.failedWith f) (setFormats s.changeover.stations .mixed y)) := by
    rw [failOperation_eq f (by rw [hych]; exact hstep) (by rw [hyself]; exact hat.waiters) (by rw [hych]; exact hk) hne,
      hgave, hych]
  obtain ⟨t, ht⟩ : ∃ t, t = post .controller (.operationDone kind .failed (s.changeover.target.getD 0) (some f))
      (modCh (Changeover.failedWith f) (setFormats s.changeover.stations .mixed y)) := ⟨_, rfl⟩
  have htstn : ∀ j, t.stn j = (setFormats s.changeover.stations .mixed y).stn j := fun j => by
    rw [ht, post_stn, modCh_stn]
  have htself := setFormats_record (w := y) (held := s.changeover.stations) .mixed st.station
  rw [← htstn, hystn, faulted_stn_self] at htself
  refine ⟨t, faultEnds_of hp hmap hport hon hm hat rfl ?_ ?_ ?_ ?_ ?_ ?_, ?_, ?_, fun j => ?_, ?_, ?_, ?_⟩
  · rw [← hy]
    exact (hlost.trans hfail).trans ht.symm
  · rw [← hyport, ht, post_port, modCh_port, setFormats_port]
  · rw [htself]
  · rw [htself]
  · intro j
    rw [← hylink, ht, post_link, modCh_link, setFormats_link]
  · have htsched : t.sched = (s.faulted p st.station).sched := by
      rw [← hysched, ht, post_sched, modCh_sched, setFormats_sched]
    rw [htsched]
    exact faulted_sweeps
  · rw [ht]
    rfl
  · rw [ht]
    rfl
  · have hformat : (y.stn j).format = (s.stn j).format := by
      rw [hystn]
      by_cases hj : j = st.station
      · rw [hj, faulted_stn_self]
      · rw [faulted_stn_ne hj]
    rw [htstn, setFormats_format, hformat]
  · rw [ht, post_params, modCh_params, setFormats_params, hyparams]
  · rw [ht, post_audit, modCh_audit, setFormats_audit, hyaudit]
  · rw [ht, post_events, modCh_events, modCh_guardTime, setFormats_events, setFormats_guardTime, hyevents, hytime]

end

/-- Settles O49, one rule per timer and sense of an inhibit port, and for a fault one per operation on its link. -/
theorem inhibitPortEvents : Obligations.InhibitPortEvents := by
  unfold Obligations.InhibitPortEvents
  refine ⟨fun p i ms op s hp ht hh hs hph ha => settle_tool hp ht hh hs hph ha,
    fun p i ms block offset words st s hp ht hh hstep hst hph hn => settle_step hp ht hh hstep hst hph hn,
    fun p i ms op s hp ht hh _ hs _ => ⟨fun hf hw hl h1 h2 h3 => limit_idle hp ht hh hs hf hw hl h1 h2 h3,
      fun tr hf ho => limit_inFlight hp ht hh hs hf ho⟩,
    fun p level s hp => sense_monitor hp,
    fun p i ms s hp hmap hport hon hm hh hw hch => fault_unused hp hmap hport hon hm hh hw hch,
    fun p i ms s hp hmap hm hq hr => fault_identity hp hmap hm hq hr, ?_⟩
  intro p i ms u s hp hmap hport hon hm holds waits hat posted ended
  exact ⟨fun op hu hch hs h1 h2 h3 => fault_tool hp hmap hport hon hm hat hu hch hs h1 h2 h3,
    fun c hu hch hc hci hpace => fault_check hp hmap hport hon hm hat hu hch hc hci hpace,
    fun st kind hu hch hwork hstep hst hk hne hstop =>
      fault_changeover hp hmap hport hon hm hat hu hch hwork hstep hst hk hne hstop⟩

end Sys2Proof.Machine
end
